-- ==== Sys2Proof/Word.lean ====
section
/-! DEFINITION. The vector widths of the block (spec/00_scope.md R3 and section 6): everything is an unsigned bit pattern. -/

namespace Sys2Proof

/-- `DATA_UNIT`, the 8-bit byte (R3). -/
abbrev Byte := BitVec 8

/-- `CRC_WIDTH` and `REG_WIDTH`, 16 bits (R3). -/
abbrev Half := BitVec 16

/-- `VALUE_WIDTH`, 32 bits (R3): a stream word or a value. -/
abbrev Dword := BitVec 32

/-- `CMD_WIDTH`, 40 bits (R3): a command word. -/
abbrev CmdWord := BitVec 40

/-- `RSP_WIDTH`, 34 bits (R3): a response word. -/
abbrev RspWord := BitVec 34

end Sys2Proof
end

