-- ==== Sys2Proof/Syntax.lean ====
section
/-! DEFINITION. The byte-order modes, the fields of a command word and the six commands (spec/30_encoding.md R35 to R39). -/

namespace Sys2Proof

/-- The document's `ByteOrderMode`, listed in its order (00_scope.md R3, 30_encoding.md R38). -/
inductive Mode where
  | abcd
  | dcba
  | badc
  | cdab
deriving DecidableEq, Repr

/-- The four fields of the one command format CMD40 (30_encoding.md R35). -/
structure CmdFields where
  op   : BitVec 4
  mode : BitVec 2
  rsv  : BitVec 2
  data : Dword
deriving DecidableEq, Repr

/-- The six commands, one per row of spec/opcode_table.json (30_encoding.md R37, R39). An operand has exactly the width its
row gives it, so no command carries an operand that the encoding could not hold. -/
inductive Instr where
  /-- `CRC.INIT` (40_crc.md R53). -/
  | crcInit
  /-- `CRC.UPD8 byte` (40_crc.md R54). -/
  | crcUpd8 (byte : Byte)
  /-- `CRC.READ` (40_crc.md R55). -/
  | crcRead
  /-- `CRC.CHECK rx` (40_crc.md R56). -/
  | crcCheck (rx : Half)
  /-- `SWP.PACK mode, S` (41_swap.md R75). -/
  | swpPack (mode : Mode) (streamWord : Dword)
  /-- `SWP.UNPACK mode, V` (41_swap.md R76). -/
  | swpUnpack (mode : Mode) (value : Dword)
deriving DecidableEq, Repr

end Sys2Proof
end

