-- ==== Sys2Proof/Config.lean ====
section
/-! DEFINITION. The parameters of the block and of its host (spec/00_scope.md R3). `CRC_XOROUT` is 0 and there is no output
reflection (40_crc.md R63), so neither appears in any computation; `STEP_LATENCY` is not modelled (70_reset_and_hazards.md R130). -/

namespace Sys2Proof

/-- `CRC_POLY`: the constant XORed into the register after a right shift (00_scope.md R3; 90_conflicts.md C1). -/
def Config.crcPoly : Half := 0xA001#16

/-- `CRC_INIT`, the document's "initial value 0xFFFF" (00_scope.md R3). -/
def Config.crcInit : Half := 0xFFFF#16

/-- `MIN_FRAME_LEN`, the one parameter the spec leaves open, with its one constraint: a trailer fits
(00_scope.md R3; 92_eei_decisions.md D18). The host sequences take it as an argument. -/
structure Config.MinFrameLen where
  len : Nat
  trailer_fits : 2 ≤ len
deriving DecidableEq, Repr

/-- The value the spec derives from the frame layout, 4 (00_scope.md R3). -/
def Config.minFrameLen : Config.MinFrameLen := ⟨4, by decide⟩

/-- The four vendors the document names (20_memory.md R24). -/
inductive Vendor where
  | modbus
  | siemens
  | mitsubishi
  | lsElectric
deriving DecidableEq, Repr

/-- `DEFAULT_MODE(vendor)`, a parameter of the host: the block holds no mode (00_scope.md R3; 20_memory.md R24). -/
def Config.defaultMode : Vendor → Mode
  | .modbus => .abcd
  | .siemens => .abcd
  | .mitsubishi => .dcba
  | .lsElectric => .dcba

end Sys2Proof
end

