-- ==== Sys2Proof/Machine/State.lean ====
section
/-! DEFINITION. The state of the machine: the block's one register (spec/10_state.md R10, R11), the response port (R17) and the
inputs the host presents, which are no state of the block (R12, R16). -/

namespace Sys2Proof.Machine

/-- The block's complete architectural state (10_state.md R11): the one 16-bit register `CRC`. -/
structure Block where
  crc : Half
deriving DecidableEq, Repr

/-- What the host can do to the block in one step (10_state.md R16; 70_reset_and_hazards.md R120). -/
inductive HostInput where
  /-- The host presents a command word, legal or not. -/
  | command (w : CmdWord)
  /-- The host asserts reset, with or without a command word presented beside it. -/
  | reset (presented : Option CmdWord)
deriving DecidableEq, Repr

/-- The whole machine. `inputs` is the host's side of the port: the block keeps none of it (10_state.md R12); it stands here
because a step of this model takes no argument beside the state (DESIGN CHOICE, notes/assumptions/1.md, safe). -/
structure State where
  /-- The block (10_state.md R11). -/
  block : Block
  /-- What the host presents, next first. -/
  inputs : List HostInput
  /-- The response port: the response of the last step, if it gave one (10_state.md R17; 30_encoding.md R36). -/
  response : Option RspWord
deriving DecidableEq, Repr

/-- The faults of a step: none. Every command word has one defined response (30_encoding.md R42), nothing stops the block
(70_reset_and_hazards.md R132), and an illegal word is answered, not stopped at (60_exceptions.md R102; notes/assumptions/3.md).
Nothing raises one, which is safe: no run ends where the hardware goes on. -/
inductive Fault where
deriving DecidableEq, Repr

/-- Why a step or a host sequence gives no next state. -/
inductive Refusal where
  /-- Raised by an arm of `exec` whose command has no meaning yet. No arm does. Safe. -/
  | notModelled (mnemonic : String)
  /-- Raised by a host sequence that issued a command and got no response, which R36 of 30_encoding.md excludes: it never
  happens. Safe. -/
  | noResponse
deriving DecidableEq, Repr

/-- The machine after reset: `CRC = 0xFFFF` and no response pending (10_state.md R17; 70_reset_and_hazards.md R120). The host has
presented nothing (DESIGN CHOICE, notes/assumptions/1.md). -/
def State.reset : State where
  block := { crc := Config.crcInit }
  inputs := []
  response := none

end Sys2Proof.Machine
end

