-- ==== Sys2Proof/Machine/Flags.lean ====
section
/-! DEFINITION. The block holds no flags (spec/10_state.md R14). What other machines report in flags it reports in the 2-bit
status of a response: the statuses, their codes, the response word and the one computed status (30_encoding.md R36; 60_exceptions.md R100). -/

namespace Sys2Proof.Machine

/-- The three statuses (30_encoding.md R36; 60_exceptions.md R100). -/
inductive Status where
  | ok
  | crcMismatch
  | illegalCmd
deriving DecidableEq, Repr

/-- The status codes; `11` is never produced (30_encoding.md R36). -/
def Status.code : Status → BitVec 2
  | .ok => 0
  | .crcMismatch => 1
  | .illegalCmd => 2

/-- The response word `rsp(status, data)`: status in bits 33:32, data in bits 31:0 (30_encoding.md R36). -/
def rsp (status : Status) (data : Dword) : RspWord :=
  status.code ++ data

/-- Bits 33:32 of a response word (R36). -/
def rspStatus (r : RspWord) : BitVec 2 :=
  r.extractLsb' 32 2

/-- Bits 31:0 of a response word (R36). -/
def rspData (r : RspWord) : Dword :=
  r.extractLsb' 0 32

/-- The status of `CRC.CHECK`: all 16 bits are compared (40_crc.md R56; 60_exceptions.md R101). -/
def checkStatus (crc rx : Half) : Status :=
  if crc = rx then .ok else .crcMismatch

end Sys2Proof.Machine
end

