-- ==== Sys2Proof/Machine/Ops.lean ====
section
/-! DEFINITION. The named operations: the CRC function (spec/40_crc.md R50 to R52, R59) and the operations on the register, the
response port and the presented inputs (10_state.md R10, R16; 60_exceptions.md R102, R106; 70_reset_and_hazards.md R120). -/

namespace Sys2Proof.Machine

/-- `crc_bit`: shift right by one, and XOR the constant in when the feedback bit is set (40_crc.md R50). -/
def crcBit (c : Half) (d : Bool) : Half :=
  if c.getLsbD 0 ^^ d then (c >>> 1) ^^^ Config.crcPoly else c >>> 1

/-- `crc_byte`: the eight bits of the byte, bit 0 first (40_crc.md R51). -/
def crcByte (c : Half) (b : Byte) : Half :=
  [0, 1, 2, 3, 4, 5, 6, 7].foldl (fun c i => crcBit c (b.getLsbD i)) c

/-- `crc_bytes`: the bytes of a sequence, first to last (40_crc.md R52). -/
def crcBytes (c : Half) : List Byte → Half
  | [] => c
  | b :: rest => crcBytes (crcByte c b) rest

/-- The CRC-16/Modbus of a byte sequence: the register itself, with no final XOR (40_crc.md R52, R63). -/
def crc16Modbus (m : List Byte) : Half :=
  crcBytes Config.crcInit m

/-- One round of the XOR-first form (40_crc.md R59 (a)). -/
def xorFirstRound (c : Half) : Half :=
  if c.getLsbD 0 then (c >>> 1) ^^^ Config.crcPoly else c >>> 1

/-- The XOR-first form of `crc_byte` (40_crc.md R59 (a)). -/
def crcByteXorFirst (c : Half) (b : Byte) : Half :=
  Nat.repeat xorFirstRound 8 (c ^^^ b.setWidth 16)

/-- The register `CRC` (10_state.md R10). -/
def State.crc (s : State) : Half :=
  s.block.crc

/-- `CRC <- v` (10_state.md R10). -/
def State.setCrc (v : Half) (s : State) : State :=
  { s with block := { crc := v } }

/-- Deliver `rsp(status, data)` on the response port (30_encoding.md R36; 60_exceptions.md R106). -/
def State.respond (status : Status) (data : Dword) (s : State) : State :=
  { s with response := some (rsp status data) }

/-- `raise ILLEGAL_CMD`, which stands where other machines take an exception: write no state, answer `rsp(ILLEGAL_CMD, 0)`
(60_exceptions.md R102, R106). There is nothing to save and no return from it (R107). -/
def State.raiseIllegalCmd (s : State) : State :=
  s.respond .illegalCmd 0

/-- Reset: `CRC <- 0xFFFF`, and no response is pending (70_reset_and_hazards.md R120; 10_state.md R17). -/
def State.applyReset (s : State) : State :=
  { s with block := { crc := Config.crcInit }, response := none }

/-- A step in which the host presents nothing: the block keeps its state and gives no response (60_exceptions.md R104:
"It speaks only when spoken to"; DEDUCED, notes/assumptions/4.md, safe). -/
def State.idle (s : State) : State :=
  { s with response := none }

/-- The input the block accepts next, if the host presents one (10_state.md R13). -/
def State.nextInput (s : State) : Option HostInput :=
  s.inputs.head?

/-- The state once that input has been accepted (20_memory.md R30). -/
def State.accepted (s : State) : State :=
  { s with inputs := s.inputs.tail }

/-- The host presents `ev` as the very next input (10_state.md R16). -/
def State.present (ev : HostInput) (s : State) : State :=
  { s with inputs := ev :: s.inputs }

end Sys2Proof.Machine
end

