-- ==== Sys2Proof/Machine/CrcFamily.lean ====
section
/-! DEFINITION. The meanings of the CRC family: CRC.INIT, CRC.UPD8, CRC.READ, CRC.CHECK (spec/40_crc.md R53 to R56). Each acts on
the state in which its command word has already been accepted. -/

namespace Sys2Proof.Machine

/-- `CRC <- 0xFFFF; return rsp(OK, 0)` (R53). -/
def execCrcInit (s : State) : Host.Outcome State Fault Refusal :=
  .next ((s.setCrc Config.crcInit).respond .ok 0)

/-- `CRC <- crc_byte(CRC, byte); return rsp(OK, 0)` (R54). -/
def execCrcUpd8 (byte : Byte) (s : State) : Host.Outcome State Fault Refusal :=
  .next ((s.setCrc (crcByte s.crc byte)).respond .ok 0)

/-- `return rsp(OK, zext_32(CRC))` (R55). -/
def execCrcRead (s : State) : Host.Outcome State Fault Refusal :=
  .next (s.respond .ok (s.crc.setWidth 32))

/-- Compare all 16 bits, and return the computed CRC with either status (R56). -/
def execCrcCheck (rx : Half) (s : State) : Host.Outcome State Fault Refusal :=
  .next (s.respond (checkStatus s.crc rx) (s.crc.setWidth 32))

end Sys2Proof.Machine
end

