-- ==== Sys2Proof/WellFormed.lean ====
section
/-! DEFINITION. Which fields of a command word are well formed: the must-be-zero rules (spec/30_encoding.md R40, R41). -/

namespace Sys2Proof

/-- The six assigned values of `op` (30_encoding.md R37). -/
def CmdFields.opAssigned (f : CmdFields) : Bool :=
  f.op = 1 ∨ f.op = 2 ∨ f.op = 3 ∨ f.op = 4 ∨ f.op = 8 ∨ f.op = 9

/-- `rsv` must be zero in every command (R40). -/
def CmdFields.rsvZero (f : CmdFields) : Bool :=
  f.rsv = 0

/-- `mode` must be zero in a CRC-family command, whose `op` has its top bit clear (R37, R40). -/
def CmdFields.modeAllowed (f : CmdFields) : Bool :=
  f.op.getLsbD 3 ∨ f.mode = 0

/-- The bits of `data` above the operand must be zero (R40). -/
def CmdFields.dataAllowed (f : CmdFields) : Bool :=
  (f.op = 1 → f.data = 0) ∧ (f.op = 2 → f.data.extractLsb' 8 24 = 0) ∧ (f.op = 3 → f.data = 0)
    ∧ (f.op = 4 → f.data.extractLsb' 16 16 = 0)

/-- The fields spell a command: no rule of R40 is broken and `op` is assigned (R41). -/
def CmdFields.wellFormed (f : CmdFields) : Bool :=
  f.opAssigned && f.rsvZero && f.modeAllowed && f.dataAllowed

end Sys2Proof
end

