-- ==== Sys2Proof/Decode.lean ====
section
/-! DEFINITION. The decoder of a 40-bit command word, total and rejecting by name, the encoder, and the opcode table's rows
(spec/30_encoding.md R35, R37 to R41, R46). -/

namespace Sys2Proof

/-- The numeric code of a mode (30_encoding.md R38). -/
def Mode.code : Mode → BitVec 2
  | .abcd => 0
  | .dcba => 1
  | .badc => 2
  | .cdab => 3

/-- The mode a code names; all four codes are legal (R38). -/
def Mode.ofCode (c : BitVec 2) : Mode :=
  if c = 0 then .abcd else if c = 1 then .dcba else if c = 2 then .badc else .cdab

/-- The four fields of a command word at the bit positions of R35. -/
def CmdFields.ofWord (w : CmdWord) : CmdFields where
  op := w.extractLsb' 36 4
  mode := w.extractLsb' 34 2
  rsv := w.extractLsb' 32 2
  data := w.extractLsb' 0 32

/-- A command word put together from its fields, `op` on top (R35). -/
def CmdFields.toWord (f : CmdFields) : CmdWord :=
  f.op ++ f.mode ++ f.rsv ++ f.data

/-- Why a command word is illegal: the four classes of R41. The block answers all of them alike (60_exceptions.md R102). -/
inductive Illegal where
  /-- `rsv` is not zero. -/
  | reservedBits
  /-- `op` is none of the six assigned values. -/
  | unassignedOp
  /-- A CRC-family command with a non-zero `mode`. -/
  | modeNotZero
  /-- A CRC-family command with a non-zero must-be-zero bit of `data`. -/
  | dataNotZero
deriving DecidableEq, Repr

/-- What the decoder answers: a command, or `Illegal` with the reason. -/
inductive Decoded where
  | command (i : Instr)
  | illegal (why : Illegal)
deriving DecidableEq, Repr

/-- A CRC-family command whose `mode` and must-be-zero `data` bits are checked, in R46's order. -/
def decodeCrc (mode : BitVec 2) (dataZero : Bool) (i : Instr) : Decoded :=
  if mode ≠ 0 then .illegal .modeNotZero
  else if dataZero then .command i
  else .illegal .dataNotZero

/-- The decoding procedure of R46 on the fields of a word. -/
def decodeFields (f : CmdFields) : Decoded :=
  if f.rsv ≠ 0 then .illegal .reservedBits
  else if f.op = 1 then decodeCrc f.mode (f.data == 0) .crcInit
  else if f.op = 2 then decodeCrc f.mode (f.data.extractLsb' 8 24 == 0) (.crcUpd8 (f.data.extractLsb' 0 8))
  else if f.op = 3 then decodeCrc f.mode (f.data == 0) .crcRead
  else if f.op = 4 then decodeCrc f.mode (f.data.extractLsb' 16 16 == 0) (.crcCheck (f.data.extractLsb' 0 16))
  else if f.op = 8 then .command (.swpPack (Mode.ofCode f.mode) f.data)
  else if f.op = 9 then .command (.swpUnpack (Mode.ofCode f.mode) f.data)
  else .illegal .unassignedOp

/-- `decode` of R46, total on every command word. -/
def decode (w : CmdWord) : Decoded :=
  decodeFields (CmdFields.ofWord w)

/-- The command a decoded word spells, if it spells one. -/
def Decoded.instr? : Decoded → Option Instr
  | .command i => some i
  | .illegal _ => none

/-- The fields of a command's one encoding: R39's rows, the must-be-zero bits zero. -/
def encodeFields : Instr → CmdFields
  | .crcInit => ⟨1, 0, 0, 0⟩
  | .crcUpd8 byte => ⟨2, 0, 0, byte.setWidth 32⟩
  | .crcRead => ⟨3, 0, 0, 0⟩
  | .crcCheck rx => ⟨4, 0, 0, rx.setWidth 32⟩
  | .swpPack mode s => ⟨8, mode.code, 0, s⟩
  | .swpUnpack mode v => ⟨9, mode.code, 0, v⟩

/-- `encode` of R46: the one word of a command. -/
def encode (i : Instr) : CmdWord :=
  (encodeFields i).toWord

/-- A command is well formed when the fields it is assembled into break no must-be-zero rule (R40). The operand types make this
true of every command. -/
abbrev Instr.WellFormed (i : Instr) : Prop :=
  (encodeFields i).wellFormed = true

/-- A row of the opcode table: its mask and its match (R39). -/
structure OpcodeRow where
  mnemonic : String
  mask : CmdWord
  pattern : CmdWord
deriving DecidableEq, Repr

/-- The six rows of R39 and of spec/opcode_table.json. -/
def opcodeRows : List OpcodeRow :=
  [⟨"CRC.INIT", 0xFFFFFFFFFF#40, 0x1000000000#40⟩, ⟨"CRC.UPD8", 0xFFFFFFFF00#40, 0x2000000000#40⟩,
   ⟨"CRC.READ", 0xFFFFFFFFFF#40, 0x3000000000#40⟩, ⟨"CRC.CHECK", 0xFFFFFF0000#40, 0x4000000000#40⟩,
   ⟨"SWP.PACK", 0xF300000000#40, 0x8000000000#40⟩, ⟨"SWP.UNPACK", 0xF300000000#40, 0x9000000000#40⟩]

/-- "A word `w` spells the command of a row exactly when `(w and mask) == match`" (R39). -/
def OpcodeRow.spells (r : OpcodeRow) (w : CmdWord) : Bool :=
  w &&& r.mask == r.pattern

/-- The command word whose bits are the low `nbits` bits of `w`, the bits above them zero. The port takes a command word whole
(30_encoding.md R35), so there is no order of bytes to choose. -/
def tableWord (nbits w : Nat) : CmdWord :=
  BitVec.ofNat 40 (w % 2 ^ nbits)

/-- What the decoder reads from an instruction of `nbits` bits numbered as spec/opcode_table.json numbers them. A command is
never longer than 40 bits (R43). -/
def decodeTableWord (nbits w : Nat) : Option Instr :=
  if nbits ≤ 40 ∧ w < 2 ^ nbits then (decode (tableWord nbits w)).instr? else none

end Sys2Proof
end

