-- ==== Sys2Proof/Machine/Operands.lean ====
section
/-! DEFINITION. Operand layouts and byte order: swaps, the lanes of a stream word and the letters of a value, the permutation of
each mode (spec/41_swap.md R70 to R73, R80), and the two trailer bytes of a frame (20_memory.md R22; 30_encoding.md R39). -/

namespace Sys2Proof.Machine

/-- `bswap16` (00_scope.md section 6). -/
def bswap16 (w : Half) : Half :=
  w.extractLsb' 0 8 ++ w.extractLsb' 8 8

/-- `bswap32` (00_scope.md section 6). -/
def bswap32 (v : Dword) : Dword :=
  v.extractLsb' 0 8 ++ v.extractLsb' 8 8 ++ v.extractLsb' 16 8 ++ v.extractLsb' 24 8

/-- `wswap32` (00_scope.md section 6). -/
def wswap32 (v : Dword) : Dword :=
  v.extractLsb' 0 16 ++ v.extractLsb' 16 16

/-- Byte `i` of a 32-bit word, numbered 0 to 3 from the most significant: `b0` to `b3` of a stream word, the letters
`A` to `D` of a value (41_swap.md R70, R71, R73). -/
def lane (x : Dword) (i : Nat) : Byte :=
  x.extractLsb' (24 - 8 * i) 8

/-- The stream word of four bytes, first on the wire on top (41_swap.md R71). -/
def streamWord (b0 b1 b2 b3 : Byte) : Dword :=
  b0 ++ b1 ++ b2 ++ b3

/-- `W0`, the first register of a stream word (41_swap.md R71). -/
def firstReg (s : Dword) : Half :=
  s.extractLsb' 16 16

/-- `W1`, the second register of a stream word (41_swap.md R71). -/
def secondReg (s : Dword) : Half :=
  s.extractLsb' 0 16

/-- `perm`: the bytes of `x` in the order the mode's name lists them (41_swap.md R72). -/
def perm (mode : Mode) (x : Dword) : Dword :=
  match mode with
  | .abcd => streamWord (lane x 0) (lane x 1) (lane x 2) (lane x 3)
  | .dcba => streamWord (lane x 3) (lane x 2) (lane x 1) (lane x 0)
  | .badc => streamWord (lane x 1) (lane x 0) (lane x 3) (lane x 2)
  | .cdab => streamWord (lane x 2) (lane x 3) (lane x 0) (lane x 1)

/-- `ws`: the two 16-bit halves are exchanged, `mode[0]` (30_encoding.md R38). -/
def wordSwapped (mode : Mode) : Bool :=
  mode.code.getLsbD 0

/-- `bs`: the bytes within each half are exchanged, `mode[1] xor mode[0]` (30_encoding.md R38). -/
def bytesSwapped (mode : Mode) : Bool :=
  mode.code.getLsbD 1 ^^ mode.code.getLsbD 0

/-- `k = 2·ws + bs`, a number in 0..3 (41_swap.md R73). -/
def laneXor (mode : Mode) : Nat :=
  2 * (wordSwapped mode).toNat + (bytesSwapped mode).toNat

/-- The two-stage form of `perm` (41_swap.md R73). -/
def permStages (mode : Mode) (x : Dword) : Dword :=
  let y := if bytesSwapped mode then bswap16 (x.extractLsb' 16 16) ++ bswap16 (x.extractLsb' 0 16) else x
  if wordSwapped mode then wswap32 y else y

/-- The received CRC `F[n-1] ‖ F[n-2]`: the first trailer byte received is the low byte (20_memory.md R22; 30_encoding.md R39). -/
def receivedCrc (firstReceived secondReceived : Byte) : Half :=
  secondReceived ++ firstReceived

/-- The trailer of a CRC in stream order, low byte first (20_memory.md R22). -/
def trailer (crc : Half) : List Byte :=
  [crc.extractLsb' 0 8, crc.extractLsb' 8 8]

/-- The order argument of the document's 16-bit helpers (41_swap.md R80). -/
inductive ByteOrder where
  | be
  | le
deriving DecidableEq, Repr

/-- `pack16(order, b0, b1)` (41_swap.md R80). -/
def pack16 (order : ByteOrder) (b0 b1 : Byte) : Half :=
  match order with
  | .be => b0 ++ b1
  | .le => b1 ++ b0

/-- `unpack16(order, h)`, the two bytes in stream order (41_swap.md R80). -/
def unpack16 (order : ByteOrder) (h : Half) : Byte × Byte :=
  match order with
  | .be => (h.extractLsb' 8 8, h.extractLsb' 0 8)
  | .le => (h.extractLsb' 0 8, h.extractLsb' 8 8)

/-- `shorts_to_bytes`, element by element in order (41_swap.md R80). The spec leaves the empty array open (91_not_in_source.md N18);
it converts to no bytes (DESIGN CHOICE, notes/assumptions/14.md, unsafe). -/
def shortsToBytes (order : ByteOrder) : List Half → List Byte
  | [] => []
  | h :: rest => (unpack16 order h).1 :: (unpack16 order h).2 :: shortsToBytes order rest

/-- `bytes_to_shorts`, element by element in order (41_swap.md R80). A byte left over makes no element, so there is no
answer then (DESIGN CHOICE, notes/assumptions/6.md, safe). No bytes convert to the empty array, which the spec leaves open
(91_not_in_source.md N18; DESIGN CHOICE, notes/assumptions/14.md, unsafe). -/
def bytesToShorts (order : ByteOrder) : List Byte → Option (List Half)
  | [] => some []
  | [_] => none
  | b0 :: b1 :: rest => (bytesToShorts order rest).map (pack16 order b0 b1 :: ·)

end Sys2Proof.Machine
end

