-- ==== Sys2Proof/Machine/SwpFamily.lean ====
section
/-! DEFINITION. The meanings of the SWP family: SWP.PACK and SWP.UNPACK (spec/41_swap.md R75, R76). Both compute `perm`, because
every mode is its own inverse (R77); neither reads or writes `CRC` (10_state.md R19). -/

namespace Sys2Proof.Machine

/-- `return rsp(OK, perm(mode, S))`: stream bytes to value (R75). -/
def execSwpPack (mode : Mode) (streamBytes : Dword) (s : State) : Host.Outcome State Fault Refusal :=
  .next (s.respond .ok (perm mode streamBytes))

/-- `return rsp(OK, perm(mode, V))`: value to stream bytes (R76). -/
def execSwpUnpack (mode : Mode) (value : Dword) (s : State) : Host.Outcome State Fault Refusal :=
  .next (s.respond .ok (perm mode value))

end Sys2Proof.Machine
end

