-- ==== Sys2Proof/Machine/Dispatch.lean ====
section
/-! DEFINITION. One arm per command: each is a direct call of its meaning. -/

namespace Sys2Proof.Machine

def exec (i : Instr) (s : State) : Host.Outcome State Fault Refusal :=
  match i with
  | .crcInit => Sys2Proof.Machine.execCrcInit s
  | .crcUpd8 byte => Sys2Proof.Machine.execCrcUpd8 byte s
  | .crcRead => Sys2Proof.Machine.execCrcRead s
  | .crcCheck rx => Sys2Proof.Machine.execCrcCheck rx s
  | .swpPack mode streamBytes => Sys2Proof.Machine.execSwpPack mode streamBytes s
  | .swpUnpack mode value => Sys2Proof.Machine.execSwpUnpack mode value s

end Sys2Proof.Machine
end

