-- ==== Sys2Proof/Machine/Port.lean ====
section
/-! DEFINITION. What the block does with one input of the host: decode first, then the command or `ILLEGAL_CMD`; reset before
everything (spec/10_state.md R16; 60_exceptions.md R102, R105; 70_reset_and_hazards.md R120). -/

namespace Sys2Proof.Machine

/-- The block's answer to one command word, legality decided from the word alone (60_exceptions.md R105). -/
def runWord (w : CmdWord) (s : State) : Host.Outcome State Fault Refusal :=
  match decode w with
  | .command i => exec i s
  | .illegal _ => .next s.raiseIllegalCmd

/-- The block's answer to one input, already accepted. A command presented together with reset is not executed and gets no
response (70_reset_and_hazards.md R120). -/
def runInput (ev : Option HostInput) (s : State) : Host.Outcome State Fault Refusal :=
  match ev with
  | none => .next s.idle
  | some (.reset _) => .next s.applyReset
  | some (.command w) => runWord w s

end Sys2Proof.Machine
end

