-- ==== Sys2Proof/Machine/Step.lean ====
section
/-! DEFINITION. The step: accept the host's next input and answer it (spec/10_state.md R16). -/

namespace Sys2Proof.Machine

/-- One atomic step of the block on the next input (10_state.md R16; 20_memory.md R30). -/
def step (s : State) : Host.Outcome State Fault Refusal :=
  runInput s.nextInput s.accepted

/-- `s` with a command word presented as the next input: a command reaches the block from its host, never from a stored
program (10_state.md R13; notes/assumptions/5.md). -/
def State.withFetchWord (s : State) (nbits w : Nat) : State :=
  s.present (.command (tableWord nbits w))

end Sys2Proof.Machine
end

