-- ==== Sys2Proof/Machine/HostSeq.lean ====
section
/-! DEFINITION. The host sequences (pseudo-operations) of spec/42_frame_pseudo_ops.md R85 to R92: real commands issued to the
machine one at a time, with the host's own handling of its bytes. None has an opcode (30_encoding.md R45). -/

namespace Sys2Proof.Machine

/-- Go on from an outcome that answers. -/
def andThen {α β : Type} (o : Host.Outcome α Fault Refusal) (k : α → Host.Outcome β Fault Refusal) :
    Host.Outcome β Fault Refusal :=
  match o with
  | .next a => k a
  | .fault f => .fault f
  | .refused r => .refused r

/-- The response of the step just made, with the state. -/
def takeResponse (s : State) : Host.Outcome (RspWord × State) Fault Refusal :=
  match s.response with
  | some r => .next (r, s)
  | none => .refused .noResponse

/-- `issue(c)`: send the command's word and take its response (42_frame_pseudo_ops.md, opening). -/
def issue (i : Instr) (s : State) : Host.Outcome (RspWord × State) Fault Refusal :=
  andThen (step (s.present (.command (encode i)))) takeResponse

/-- Issue commands one after another, dropping their responses. -/
def issueAll : List Instr → State → Host.Outcome State Fault Refusal
  | [], s => .next s
  | i :: rest, s => andThen (issue i s) fun p => issueAll rest p.2

/-- One `CRC.UPD8` per byte, in stream order (42_frame_pseudo_ops.md R85). -/
def absorb (m : List Byte) (s : State) : Host.Outcome State Fault Refusal :=
  issueAll (m.map .crcUpd8) s

/-- `CRC.INIT`, then one `CRC.UPD8` per byte (42_frame_pseudo_ops.md R85, R87, R88). -/
def startFrame (m : List Byte) (s : State) : Host.Outcome State Fault Refusal :=
  issueAll (.crcInit :: m.map .crcUpd8) s

/-- `crc.calc m`, the document's `calculate_crc` (42_frame_pseudo_ops.md R85). -/
def crcCalc (m : List Byte) (s : State) : Host.Outcome (Half × State) Fault Refusal :=
  andThen (startFrame m s) fun s1 =>
    andThen (issue .crcRead s1) fun p => .next ((rspData p.1).extractLsb' 0 16, p.2)

/-- `frame.gen m`: append the low byte and the high byte of the CRC (42_frame_pseudo_ops.md R86). -/
def frameGen (m : List Byte) (s : State) : Host.Outcome (List Byte × State) Fault Refusal :=
  andThen (crcCalc m s) fun p => .next (m ++ trailer p.1, p.2)

/-- The host-level outcomes of a verification (42_frame_pseudo_ops.md R87; 60_exceptions.md R103). -/
inductive Verdict where
  | valid
  | crcMismatch
  | tooShort
deriving DecidableEq, Repr

/-- The bytes of a frame the CRC is computed over, `F[0..n-3]` (20_memory.md R21). -/
def coveredBytes (frame : List Byte) : List Byte :=
  frame.take (frame.length - 2)

/-- `F[n-1] ‖ F[n-2]` of a frame of at least two bytes (20_memory.md R22). On a shorter frame no sequence uses it. -/
def frameTrailer (frame : List Byte) : Half :=
  receivedCrc (frame.getD (frame.length - 2) 0) (frame.getD (frame.length - 1) 0)

/-- `frame.verify F`: check by comparison (42_frame_pseudo_ops.md R87). -/
def frameVerify (minLen : Config.MinFrameLen) (frame : List Byte) (s : State) :
    Host.Outcome (Verdict × State) Fault Refusal :=
  if frame.length < minLen.len then .next (.tooShort, s)
  else
    andThen (startFrame (coveredBytes frame) s) fun s1 =>
      andThen (issue (.crcCheck (frameTrailer frame)) s1) fun p =>
        .next (if rspStatus p.1 = Status.ok.code then .valid else .crcMismatch, p.2)

/-- `frame.verify_residue F`: absorb the trailer too and test for zero (42_frame_pseudo_ops.md R88). -/
def frameVerifyResidue (minLen : Config.MinFrameLen) (frame : List Byte) (s : State) :
    Host.Outcome (Verdict × State) Fault Refusal :=
  if frame.length < minLen.len then .next (.tooShort, s)
  else
    andThen (startFrame frame s) fun s1 =>
      andThen (issue .crcRead s1) fun p =>
        .next (if (rspData p.1).extractLsb' 0 16 = 0 then .valid else .crcMismatch, p.2)

/-- `swp.w2i mode, w0, w1`, the document's `words_to_int32` (42_frame_pseudo_ops.md R89). -/
def swpW2i (mode : Mode) (w0 w1 : Half) (s : State) : Host.Outcome (Dword × State) Fault Refusal :=
  andThen (issue (.swpPack mode (w0 ++ w1)) s) fun p => .next (rspData p.1, p.2)

/-- `swp.i2w mode, v`, the document's `int32_to_words` (42_frame_pseudo_ops.md R90). -/
def swpI2w (mode : Mode) (v : Dword) (s : State) : Host.Outcome ((Half × Half) × State) Fault Refusal :=
  andThen (issue (.swpUnpack mode v) s) fun p => .next ((firstReg (rspData p.1), secondReg (rspData p.1)), p.2)

/-- `swp.h16 order, h`: big-endian takes no command (42_frame_pseudo_ops.md R91). -/
def swpH16 (order : ByteOrder) (h : Half) (s : State) : Host.Outcome (Half × State) Fault Refusal :=
  match order with
  | .be => .next (h, s)
  | .le => andThen (issue (.swpPack .badc ((0#16 : Half) ++ h)) s) fun p => .next (secondReg (rspData p.1), p.2)

/-- What the combined read sequence gives its host (42_frame_pseudo_ops.md R92). -/
inductive ReadOutcome where
  /-- The frame was valid: the 32-bit value. -/
  | value (v : Dword)
  /-- The frame was not valid: no byte of it is used. -/
  | failed (v : Verdict)
  /-- The four data bytes do not lie in the covered bytes: the host named a wrong place (notes/assumptions/7.md). -/
  | notInFrame
deriving DecidableEq, Repr

/-- Reading a 32-bit value out of a Modbus RTU response (42_frame_pseudo_ops.md R92). Where the data bytes stand, `at_`, is the
codec's knowledge. -/
def readValue (minLen : Config.MinFrameLen) (mode : Mode) (at_ : Nat) (frame : List Byte) (s : State) :
    Host.Outcome (ReadOutcome × State) Fault Refusal :=
  andThen (frameVerify minLen frame s) fun p =>
    match p.1, ((coveredBytes frame).drop at_).take 4 with
    | .valid, [b0, b1, b2, b3] =>
      andThen (issue (.swpPack mode (streamWord b0 b1 b2 b3)) p.2) fun q => .next (.value (rspData q.1), q.2)
    | .valid, _ => .next (.notInFrame, p.2)
    | .crcMismatch, _ => .next (.failed .crcMismatch, p.2)
    | .tooShort, _ => .next (.failed .tooShort, p.2)

/-- The document's four classes of errors (60_exceptions.md R108). -/
inductive ErrorClass where
  | transport
  | framing
  | protocol
  | integrity
deriving DecidableEq, Repr

/-- The class a verdict belongs to, none for success (60_exceptions.md R108). -/
def Verdict.errorClass? : Verdict → Option ErrorClass
  | .valid => none
  | .tooShort => some .framing
  | .crcMismatch => some .integrity

end Sys2Proof.Machine
end

