-- ==== Sys2Proof/Safety.lean ====
section
/-! DEFINITION. What counts as a safe run: the responses a run gives, the runs in which `ILLEGAL_CMD` was answered
(spec/60_exceptions.md R102), what the response port may show (30_encoding.md R36; 60_exceptions.md R101), and the bytes absorbed
since the last `CRC.INIT` or reset (10_state.md R10; 20_memory.md R30). -/

namespace Sys2Proof.Machine

/-- The responses of the first `n` steps, oldest first (10_state.md R18). -/
def responses : Nat → State → List RspWord
  | 0, _ => []
  | n + 1, s =>
    match step s with
    | .next t => t.response.toList ++ responses n t
    | .fault _ => []
    | .refused _ => []

/-- A run in which `ILLEGAL_CMD` was answered counts as faulted: its host is broken (60_exceptions.md R102;
notes/assumptions/3.md). "No `ILLEGAL_CMD` was answered" is `runFaulted n s = false`. -/
def runFaulted (n : Nat) (s : State) : Bool :=
  (responses n s).any fun r => rspStatus r == Status.illegalCmd.code

/-- The word is illegal: it spells no command, changes no state and is answered `rsp(ILLEGAL_CMD, 0)` (30_encoding.md R41;
60_exceptions.md R102). -/
def AnsweredIllegal (w : CmdWord) : Prop :=
  (decode w).instr? = none ∧
    ∀ s : State, step (s.present (.command w)) = .next { s with response := some (rsp .illegalCmd 0) }

/-- What the response port may show: no status `11`, no data beside `ILLEGAL_CMD`, and beside `CRC_MISMATCH` the CRC the
block holds (30_encoding.md R36; 60_exceptions.md R100, R101). -/
def State.PortLegal (s : State) : Prop :=
  ∀ r, s.response = some r →
    rspStatus r ≠ 3 ∧ (rspStatus r = Status.illegalCmd.code → rspData r = 0) ∧
      (rspStatus r = Status.crcMismatch.code → rspData r = s.crc.setWidth 32)

/-- The byte a command absorbs, if it absorbs one (40_crc.md R54). -/
def absorbedByte : Instr → Option Byte
  | .crcInit => none
  | .crcUpd8 byte => some byte
  | .crcRead => none
  | .crcCheck _ => none
  | .swpPack _ _ => none
  | .swpUnpack _ _ => none

/-- The bytes a sequence of commands absorbs, in order (20_memory.md R30 (b)). -/
def absorbedBytes (cmds : List Instr) : List Byte :=
  cmds.filterMap absorbedByte

/-- The bytes absorbed since the last `CRC.INIT` or reset, after one more input (10_state.md R10). An illegal word absorbs
nothing (60_exceptions.md R102). -/
def sinceInit (m : List Byte) : HostInput → List Byte
  | .reset _ => []
  | .command w =>
    match decode w with
    | .illegal _ => m
    | .command .crcInit => []
    | .command (.crcUpd8 byte) => m ++ [byte]
    | .command .crcRead => m
    | .command (.crcCheck _) => m
    | .command (.swpPack _ _) => m
    | .command (.swpUnpack _ _) => m

end Sys2Proof.Machine
end

