-- ==== Sys2Proof/Certificates/Slice0/Obligations.lean ====
section
/-! DEFINITION. The statements for the provers, and the small reference functions one of them compares the machine with. -/

open Sys2Proof Sys2Proof.Machine

/-! ### Reference functions, written from other rules than the machine's own definitions -/

/-- The permutation of a swap command read off the two mode bits of its word: `ws` exchanges the halves, `bs` the bytes within
each half (30_encoding.md R38; 41_swap.md R73). -/
def Sys2Proof.Reference.swap (ws bs : Bool) (x : Dword) : Dword :=
  let h (w : Half) : Half := if bs then w.extractLsb' 0 8 ++ w.extractLsb' 8 8 else w
  if ws then h (x.extractLsb' 0 16) ++ h (x.extractLsb' 16 16) else h (x.extractLsb' 16 16) ++ h (x.extractLsb' 0 16)

/-- The block's step on one command word by the mask and match rows of R39, with the table form of `crc_byte` (40_crc.md R59 (b))
and response words written as `status ‖ data` (30_encoding.md R36). -/
def Sys2Proof.Reference.answer (crc : Half) (w : CmdWord) : Half × RspWord :=
  if w &&& 0xFFFFFFFFFF#40 = 0x1000000000#40 then (0xFFFF#16, 0#34)
  else if w &&& 0xFFFFFFFF00#40 = 0x2000000000#40 then (crcByteTable crc (w.extractLsb' 0 8), 0#34)
  else if w &&& 0xFFFFFFFFFF#40 = 0x3000000000#40 then (crc, crc.setWidth 34)
  else if w &&& 0xFFFFFF0000#40 = 0x4000000000#40 then
    (crc, (if crc = w.extractLsb' 0 16 then 0#18 else 0x10000#18) ++ crc)
  else if w &&& 0xF300000000#40 = 0x8000000000#40 ∨ w &&& 0xF300000000#40 = 0x9000000000#40 then
    (crc, 0#2 ++ Sys2Proof.Reference.swap (w.getLsbD 34) (w.getLsbD 35 ^^ w.getLsbD 34) (w.extractLsb' 0 32))
  else (crc, 0x200000000#34)

/-- A run of the block on a list of inputs: the last register value and the responses, oldest first (10_state.md R16;
70_reset_and_hazards.md R120). -/
def Sys2Proof.Reference.run (crc : Half) : List HostInput → Half × List RspWord
  | [] => (crc, [])
  | .reset _ :: rest => Sys2Proof.Reference.run 0xFFFF#16 rest
  | .command w :: rest =>
    let a := Sys2Proof.Reference.answer crc w
    let r := Sys2Proof.Reference.run a.1 rest
    (r.1, a.2 :: r.2)

/-! ### Encoding -/

/-- 30_encoding.md section 4: `decode(encode(c)) = c` for every command at every operand value, and no command's encoding breaks a
must-be-zero rule. -/
def Obligations.DecodeEncodeRoundTrip : Prop :=
  ∀ i : Instr, i.WellFormed ∧ decode (encode i) = .command i

/-- R46: the decoding procedure, the six encodings, and the round trip. -/
def Obligations.DecodeFollowsTheProcedure : Prop :=
  (∀ w : CmdWord,
    let op : BitVec 4 := w.extractLsb' 36 4
    let mode : BitVec 2 := w.extractLsb' 34 2
    let rsv : BitVec 2 := w.extractLsb' 32 2
    let data : Dword := w.extractLsb' 0 32
    (decode w).instr? =
      if rsv ≠ 0 then none
      else if op = 0x1 then (if mode = 0 ∧ data = 0 then some .crcInit else none)
      else if op = 0x2 then
        (if mode = 0 ∧ data.extractLsb' 8 24 = 0 then some (.crcUpd8 (data.extractLsb' 0 8)) else none)
      else if op = 0x3 then (if mode = 0 ∧ data = 0 then some .crcRead else none)
      else if op = 0x4 then
        (if mode = 0 ∧ data.extractLsb' 16 16 = 0 then some (.crcCheck (data.extractLsb' 0 16)) else none)
      else if op = 0x8 then some (.swpPack (Mode.ofCode mode) data)
      else if op = 0x9 then some (.swpUnpack (Mode.ofCode mode) data)
      else none) ∧
  encode .crcInit = 0x1000000000#40 ∧
  (∀ b : Byte, encode (.crcUpd8 b) = 0x2000000000#40 ||| b.setWidth 40) ∧
  encode .crcRead = 0x3000000000#40 ∧
  (∀ r : Half, encode (.crcCheck r) = 0x4000000000#40 ||| r.setWidth 40) ∧
  (∀ (m : Mode) (s : Dword), encode (.swpPack m s) = 0x8000000000#40 ||| (m.code.setWidth 40 <<< 34) ||| s.setWidth 40) ∧
  (∀ (m : Mode) (v : Dword), encode (.swpUnpack m v) = 0x9000000000#40 ||| (m.code.setWidth 40 <<< 34) ||| v.setWidth 40) ∧
  (∀ c : Instr, decode (encode c) = .command c)

/-- R40: every broken must-be-zero rule makes the word illegal, and each command has exactly one encoding. -/
def Obligations.MustBeZeroBitsRefused : Prop :=
  (∀ f : CmdFields,
    (f.rsv ≠ 0 → AnsweredIllegal f.toWord) ∧
    ((f.op = 1 ∨ f.op = 2 ∨ f.op = 3 ∨ f.op = 4) → f.mode ≠ 0 → AnsweredIllegal f.toWord) ∧
    ((f.op = 1 ∨ f.op = 3) → f.data ≠ 0 → AnsweredIllegal f.toWord) ∧
    (f.op = 2 → f.data.extractLsb' 8 24 ≠ 0 → AnsweredIllegal f.toWord) ∧
    (f.op = 4 → f.data.extractLsb' 16 16 ≠ 0 → AnsweredIllegal f.toWord)) ∧
  (∀ (w : CmdWord) (i : Instr), decode w = .command i → encode i = w) ∧
  (∀ (w w' : CmdWord) (i : Instr), decode w = .command i → decode w' = .command i → w = w')

/-- R39: a word spells the command of a row exactly when it meets the row's mask and match, with its operands in the low bits of
`data`; no word meets two rows; the two trailer bytes lie low byte first in the operand of `CRC.CHECK`. -/
def Obligations.RowsSpellTheirCommands : Prop :=
  (∀ w : CmdWord,
    ((w &&& 0xFFFFFFFFFF#40 = 0x1000000000#40) ↔ decode w = .command .crcInit) ∧
    ((w &&& 0xFFFFFFFF00#40 = 0x2000000000#40) ↔ decode w = .command (.crcUpd8 (w.extractLsb' 0 8))) ∧
    ((w &&& 0xFFFFFFFFFF#40 = 0x3000000000#40) ↔ decode w = .command .crcRead) ∧
    ((w &&& 0xFFFFFF0000#40 = 0x4000000000#40) ↔ decode w = .command (.crcCheck (w.extractLsb' 0 16))) ∧
    ((w &&& 0xF300000000#40 = 0x8000000000#40) ↔
      decode w = .command (.swpPack (Mode.ofCode (w.extractLsb' 34 2)) (w.extractLsb' 0 32))) ∧
    ((w &&& 0xF300000000#40 = 0x9000000000#40) ↔
      decode w = .command (.swpUnpack (Mode.ofCode (w.extractLsb' 34 2)) (w.extractLsb' 0 32)))) ∧
  (∀ (w : CmdWord) (r r' : OpcodeRow), r ∈ opcodeRows → r' ∈ opcodeRows → r.spells w = true → r'.spells w = true → r = r') ∧
  (∀ lo hi : Byte,
    (encode (.crcCheck (receivedCrc lo hi))).extractLsb' 0 8 = lo ∧
    (encode (.crcCheck (receivedCrc lo hi))).extractLsb' 8 8 = hi)

/-- R41: a word is illegal exactly when it matches none of the six rows; the classes it lists; the all-zero and all-ones words;
the number of legal words. -/
def Obligations.IllegalExactlyWhenNoRowMatches : Prop :=
  (∀ w : CmdWord, AnsweredIllegal w ↔ ∀ r ∈ opcodeRows, r.spells w = false) ∧
  (∀ f : CmdFields,
    (f.op ∈ [0x0#4, 0x5#4, 0x6#4, 0x7#4, 0xA#4, 0xB#4, 0xC#4, 0xD#4, 0xE#4, 0xF#4] → AnsweredIllegal f.toWord) ∧
    (f.op ∈ [1#4, 2#4, 3#4, 4#4, 8#4, 9#4] → f.rsv ≠ 0 → AnsweredIllegal f.toWord) ∧
    (f.op ∈ [1#4, 2#4, 3#4, 4#4] → f.mode ≠ 0 → AnsweredIllegal f.toWord) ∧
    (f.op ∈ [1#4, 3#4] → f.data ≠ 0 → AnsweredIllegal f.toWord) ∧
    (f.op = 2 → f.data.extractLsb' 8 24 ≠ 0 → AnsweredIllegal f.toWord) ∧
    (f.op = 4 → f.data.extractLsb' 16 16 ≠ 0 → AnsweredIllegal f.toWord)) ∧
  AnsweredIllegal 0x0000000000#40 ∧
  AnsweredIllegal 0xFFFFFFFFFF#40 ∧
  {w : CmdWord | ∃ i, decode w = .command i}.ncard = 1 + 256 + 1 + 65536 + 4 * 2 ^ 32 + 4 * 2 ^ 32

/-- R38: the codes of the modes and the two choices each code makes; all four codes are legal. -/
def Obligations.ModeCodesAndTheirSwaps : Prop :=
  (Mode.code .abcd = 0#2 ∧ bytesSwapped .abcd = false ∧ wordSwapped .abcd = false) ∧
  (Mode.code .dcba = 1#2 ∧ bytesSwapped .dcba = true ∧ wordSwapped .dcba = true) ∧
  (Mode.code .badc = 2#2 ∧ bytesSwapped .badc = true ∧ wordSwapped .badc = false) ∧
  (Mode.code .cdab = 3#2 ∧ bytesSwapped .cdab = false ∧ wordSwapped .cdab = true) ∧
  (∀ m : Mode, wordSwapped m = m.code.getLsbD 0 ∧ bytesSwapped m = (m.code.getLsbD 1 ^^ m.code.getLsbD 0)) ∧
  (∀ (c : BitVec 2) (x : Dword), ∃ m : Mode, m.code = c ∧
    decode (CmdFields.toWord ⟨8, c, 0, x⟩) = .command (.swpPack m x) ∧
    decode (CmdFields.toWord ⟨9, c, 0, x⟩) = .command (.swpUnpack m x))

/-- R35: the four fields of the one command format and their places; the ten hexadecimal digits of a word. -/
def Obligations.CommandWordFields : Prop :=
  (∀ f : CmdFields,
    f.toWord.extractLsb' 36 4 = f.op ∧ f.toWord.extractLsb' 34 2 = f.mode ∧ f.toWord.extractLsb' 32 2 = f.rsv ∧
    f.toWord.extractLsb' 0 32 = f.data ∧ CmdFields.ofWord f.toWord = f ∧
    f.toWord.toNat = f.op.toNat * 16 ^ 9 + (f.mode ++ f.rsv).toNat * 16 ^ 8 + f.data.toNat) ∧
  (∀ w : CmdWord, (CmdFields.ofWord w).toWord = w) ∧
  (∀ f : CmdFields, f.rsv ≠ 0 → (decode f.toWord).instr? = none) ∧
  (∀ f : CmdFields, (f.op = 1 ∨ f.op = 2 ∨ f.op = 3 ∨ f.op = 4) → f.mode ≠ 0 → (decode f.toWord).instr? = none)

/-- R36: the fields of a response, its codes, one response for every command word accepted, and no data where no value is
returned. -/
def Obligations.OneResponsePerCommandWord : Prop :=
  (∀ (st : Status) (d : Dword), rspStatus (rsp st d) = st.code ∧ rspData (rsp st d) = d) ∧
  Status.ok.code = 0#2 ∧ Status.crcMismatch.code = 1#2 ∧ Status.illegalCmd.code = 2#2 ∧
  (∀ (s : State) (w : CmdWord), ∃ (t : State) (r : RspWord),
    step (s.present (.command w)) = .next t ∧ t.response = some r ∧ rspStatus r ≠ 3#2 ∧
    ((decode w = .command .crcInit ∨ (∃ b, decode w = .command (.crcUpd8 b)) ∨ (decode w).instr? = none) → rspData r = 0))

/-- Words written out from R39's patterns, legal and illegal (95_test_vectors.md section 2.5). -/
def Obligations.WordsWrittenOutDecode : Prop :=
  decode 0b0001000000000000000000000000000000000000#40 = .command .crcInit ∧
  decode 0b0010000000000000000000000000000011111111#40 = .command (.crcUpd8 0xFF#8) ∧
  decode 0b0011000000000000000000000000000000000000#40 = .command .crcRead ∧
  decode 0b0100000000000000000000000000101010000100#40 = .command (.crcCheck 0x0A84#16) ∧
  decode 0b1000010000010010001101000101011001111000#40 = .command (.swpPack .dcba 0x12345678#32) ∧
  decode 0b1001110001000001001000000000000000000000#40 = .command (.swpUnpack .cdab 0x41200000#32) ∧
  decode 0x5000000000#40 = .illegal .unassignedOp ∧
  decode 0x8100000000#40 = .illegal .reservedBits ∧
  decode 0x1400000000#40 = .illegal .modeNotZero ∧
  decode 0x2000000100#40 = .illegal .dataNotZero

/-! ### Reset and the step -/

/-- R17: the block and the response port after reset, and that the first response after reset answers the first command after
reset. -/
def Obligations.ResetStateAndFirstResponse : Prop :=
  State.reset.block = { crc := 0xFFFF#16 } ∧ State.reset.response = none ∧
  (∀ i : Instr, step (State.reset.present (.command (encode i))) = exec i State.reset)

/-- R120: reset sets `CRC` and nothing else; a command beside it is not executed and gets no response; the block is then ready
for any command at once. -/
def Obligations.ResetInputEffect : Prop :=
  ∀ (s : State) (presented : Option CmdWord), ∃ t : State,
    step (s.present (.reset presented)) = .next t ∧
    t = { block := { crc := 0xFFFF#16 }, inputs := s.inputs, response := none } ∧
    ∀ i : Instr, step (t.present (.command (encode i))) = exec i t

/-- 10_state.md section 3: a step on a word that decodes to a command is `exec` of it on the state that has accepted the word. -/
def Obligations.StepRunsTheDecodedCommand : Prop :=
  ∀ (s : State) (w : CmdWord) (rest : List HostInput) (i : Instr),
    s.inputs = .command w :: rest → decode w = .command i →
      step s = exec i { block := s.block, inputs := rest, response := s.response }

/-- R102: an illegal word writes no state and is answered `rsp(ILLEGAL_CMD, 0)`; the next legal command is executed normally; the
run counts as faulted. -/
def Obligations.IllegalWordAnswered : Prop :=
  ∀ (s : State) (w : CmdWord) (i : Instr) (rest : List HostInput),
    s.inputs = .command w :: .command (encode i) :: rest → (decode w).instr? = none → ∃ t : State,
      step s = .next t ∧ t.block = s.block ∧ t.inputs = .command (encode i) :: rest ∧
      t.response = some 0x200000000#34 ∧
      step t = exec i { block := s.block, inputs := rest, response := some 0x200000000#34 } ∧
      ∀ n : Nat, runFaulted (n + 1) s = true

/-- 10_state.md section 3 and 70_reset_and_hazards.md section 2: the step is total and never hangs, takes exactly one presented
input, and gives a response exactly when that input is a command word. -/
def Obligations.EveryStepAnswers : Prop :=
  ∀ s : State, ∃ t : State, step s = .next t ∧ t.inputs = s.inputs.tail ∧
    (t.response.isSome = true ↔ ∃ w, s.inputs.head? = some (.command w))

/-- Whole runs, legal and illegal words and resets in any order, give the register and the response sequence of the reference. -/
def Obligations.RunsMatchReference : Prop :=
  ∀ (evs : List HostInput) (s : State), ∃ t : State,
    Host.Core.run core evs.length { s with inputs := evs ++ s.inputs } = .next t ∧
    t.block.crc = (Sys2Proof.Reference.run s.block.crc evs).1 ∧ t.inputs = s.inputs ∧
    responses evs.length { s with inputs := evs ++ s.inputs } = (Sys2Proof.Reference.run s.block.crc evs).2

/-- Every step, from every state, leaves the response port legal: no status `11`, no data beside `ILLEGAL_CMD`, the held CRC beside
`CRC_MISMATCH`. So a legal port stays legal. -/
def Obligations.StepKeepsPortLegal : Prop :=
  ∀ s t : State, step s = .next t → t.PortLegal

/-- 10_state.md section 1: the register holds the CRC of the bytes absorbed since the last `CRC.INIT` or reset, through every run,
whatever legal and illegal words and resets it holds. -/
def Obligations.RegisterHoldsBytesSinceInit : Prop :=
  ∀ (evs : List HostInput) (m : List Byte) (s : State), s.block.crc = crc16Modbus m → ∃ t : State,
    Host.Core.run core evs.length { s with inputs := evs ++ s.inputs } = .next t ∧ t.inputs = s.inputs ∧
    t.block.crc = crc16Modbus (evs.foldl sinceInit m)

/-- Both invariants hold at reset: the port is legal, and the register holds the CRC of no bytes. -/
def Obligations.ResetMeetsTheInvariants : Prop :=
  State.reset.PortLegal ∧ State.reset.block.crc = crc16Modbus []

/-- 10_state.md section 1: a step that changes `CRC` is a reset, a `CRC.INIT` or a `CRC.UPD8`, and leaves the value its rule gives. -/
def Obligations.OnlyInitUpd8AndResetWriteCrc : Prop :=
  ∀ s t : State, step s = .next t → t.block.crc ≠ s.block.crc →
    (∃ p, s.inputs.head? = some (.reset p) ∧ t.block.crc = 0xFFFF#16) ∨
    (s.inputs.head? = some (.command 0x1000000000#40) ∧ t.block.crc = 0xFFFF#16) ∨
    (∃ b : Byte, s.inputs.head? = some (.command (0x2000000000#40 ||| b.setWidth 40)) ∧
      t.block.crc = crcByte s.block.crc b)

/-- The frame of every command: it takes a next state, leaves what the host presents as it was, and writes the register only if it
is `CRC.INIT` or `CRC.UPD8`. -/
def Obligations.CommandFrames : Prop :=
  ∀ (i : Instr) (s : State), ∃ t : State, exec i s = .next t ∧ t.inputs = s.inputs ∧ t.response.isSome = true ∧
    ((i = .crcRead ∨ (∃ rx, i = .crcCheck rx) ∨ (∃ m x, i = .swpPack m x) ∨ (∃ m x, i = .swpUnpack m x)) →
      t.block = s.block)

/-- R18: a response depends only on `CRC` before the step and on the command word; equal registers and equal inputs give equal
response sequences. -/
def Obligations.ResponsesDependOnCrcAndInputs : Prop :=
  (∀ (s s' : State) (w : CmdWord), s.block = s'.block → ∃ t t' : State,
    step (s.present (.command w)) = .next t ∧ step (s'.present (.command w)) = .next t' ∧
    t.response = t'.response ∧ t.block = t'.block) ∧
  (∀ (n : Nat) (s s' : State), s.block = s'.block → s.inputs = s'.inputs → responses n s = responses n s')

/-- R19: a swap command reads and writes no `CRC`, and may stand between two `CRC.UPD8` of a frame. -/
def Obligations.SwapUnitIsCombinational : Prop :=
  (∀ (i : Instr), ((∃ m x, i = .swpPack m x) ∨ (∃ m x, i = .swpUnpack m x)) →
    (∃ r : RspWord, ∀ s : State, exec i s = .next { block := s.block, inputs := s.inputs, response := some r }) ∧
    ∀ (a b : Byte) (s : State), issueAll [.crcUpd8 a, i, .crcUpd8 b] s = issueAll [.crcUpd8 a, .crcUpd8 b] s)

/-- 20_memory.md section 3, the table's last column: repeating any command but `CRC.UPD8` changes nothing, and `CRC.UPD8` is not
idempotent. -/
def Obligations.AllButUpd8AreIdempotent : Prop :=
  (∀ (i : Instr) (s : State), (∀ b, i ≠ .crcUpd8 b) → ∃ t : State, exec i s = .next t ∧ exec i t = .next t) ∧
  (∃ (b : Byte) (s t : State), exec (.crcUpd8 b) s = .next t ∧ exec (.crcUpd8 b) t ≠ .next t)

/-- R30: program order; the response to a command is produced by the step that accepts it; swap, read and check commands between
the bytes of a frame leave its CRC as the bytes alone give it. -/
def Obligations.ProgramOrder : Prop :=
  (∀ (xs ys : List Instr) (s : State), issueAll (xs ++ ys) s = andThen (issueAll xs s) (issueAll ys)) ∧
  (∀ (s : State) (w : CmdWord) (rest : List HostInput), s.inputs = .command w :: rest →
    ∃ t : State, step s = .next t ∧ t.response.isSome = true ∧ t.inputs = rest) ∧
  (∀ (cmds : List Instr) (s : State), (∀ c ∈ cmds, c ≠ .crcInit) →
    ∃ t : State, issueAll (.crcInit :: cmds) s = .next t ∧ t.block.crc = crcBytes 0xFFFF#16 (absorbedBytes cmds))

/-! ### The CRC function -/

/-- R50: the one-bit step, as a shift and as sixteen bits. -/
def Obligations.CrcBitByBit : Prop :=
  ∀ (c : Half) (d : Bool),
    let f := c.getLsbD 0 ^^ d
    let n := crcBit c d
    n = (if f = true then (c >>> 1) ^^^ 0xA001#16 else c >>> 1) ∧
    n.getLsbD 15 = f ∧ n.getLsbD 14 = c.getLsbD 15 ∧ n.getLsbD 13 = (c.getLsbD 14 ^^ f) ∧
    (∀ i : Nat, 1 ≤ i → i ≤ 12 → n.getLsbD i = c.getLsbD (i + 1)) ∧ n.getLsbD 0 = (c.getLsbD 1 ^^ f)

/-- R51: eight one-bit steps, bit 0 first, and the worked trace. -/
def Obligations.CrcByteIsEightBits : Prop :=
  (∀ (c : Half) (b : Byte), crcByte c b =
    crcBit (crcBit (crcBit (crcBit (crcBit (crcBit (crcBit (crcBit c (b.getLsbD 0)) (b.getLsbD 1)) (b.getLsbD 2)) (b.getLsbD 3))
      (b.getLsbD 4)) (b.getLsbD 5)) (b.getLsbD 6)) (b.getLsbD 7)) ∧
  [true, false, false, false, false, false, false, false].scanl crcBit 0xFFFF#16 =
    [0xFFFF#16, 0x7FFF#16, 0x9FFE#16, 0x4FFF#16, 0x87FE#16, 0x43FF#16, 0x81FE#16, 0x40FF#16, 0x807E#16] ∧
  crcByte 0xFFFF#16 0x01#8 = 0x807E#16

/-- R52 and R63: the fold over a byte sequence, and the checksum, which is the register itself. -/
def Obligations.CrcOfByteSequence : Prop :=
  (∀ c : Half, crcBytes c [] = c) ∧
  (∀ (c : Half) (b : Byte) (rest : List Byte), crcBytes c (b :: rest) = crcBytes (crcByte c b) rest) ∧
  (∀ m : List Byte, crc16Modbus m = crcBytes 0xFFFF#16 m) ∧
  crc16Modbus [] = 0xFFFF#16 ∧
  (∀ (m : List Byte) (s : State), ∃ t : State, startFrame m s = .next t ∧ t.block.crc = crc16Modbus m ∧
    ∃ t' : State, issue .crcRead t = .next (rsp .ok (0#16 ++ crc16Modbus m), t'))

/-- R59: the XOR-first form and the table form compute the same function; the printed table is `crc_byte(0x0000, i)`. -/
def Obligations.CrcByteEquivalentForms : Prop :=
  ∀ (c : Half) (b : Byte),
    crcByte c b = crcByteXorFirst c b ∧
    crcByte c b = (c >>> 8) ^^^ crcByte 0x0000#16 (c.extractLsb' 0 8 ^^^ b) ∧
    crcByte c b = crcByteTable c b ∧
    crcTable[b.toNat]? = some (crcByte 0x0000#16 b) ∧
    crcTable.take 8 = [0x0000#16, 0xC0C1#16, 0xC181#16, 0x0140#16, 0xC301#16, 0x03C0#16, 0x0280#16, 0xC241#16]

/-- R57: each bit step and byte step is a bijection, with the inverse written out; two bytes reach every target in exactly one
way; the zero register stays zero under zero bits. -/
def Obligations.CrcStepsAreBijections : Prop :=
  (∀ d : Bool, Function.Bijective fun c : Half => crcBit c d) ∧
  (∀ (c : Half) (d : Bool),
    let n := crcBit c d
    let f := n.getLsbD 15
    let s := n ^^^ (if f = true then 0xA001#16 else 0x0000#16)
    c = (s <<< 1) ||| (BitVec.ofBool (f ^^ d)).setWidth 16) ∧
  (∀ b : Byte, Function.Bijective fun c : Half => crcByte c b) ∧
  (∀ c t : Half, ∃! p : Byte × Byte, crcBytes c [p.1, p.2] = t) ∧
  (∀ t : Half, ∃ m : List Byte, crcBytes 0xFFFF#16 m = t) ∧
  crcBit 0x0000#16 false = 0x0000#16

/-- R62: linearity over XOR in both arguments together. -/
def Obligations.CrcIsLinear : Prop :=
  (∀ (m1 m2 : List Byte) (c1 c2 : Half), m1.length = m2.length →
    crcBytes (c1 ^^^ c2) (List.zipWith (· ^^^ ·) m1 m2) = crcBytes c1 m1 ^^^ crcBytes c2 m2) ∧
  (∀ k : Nat, crcBytes 0x0000#16 (List.replicate k 0x00#8) = 0x0000#16) ∧
  (∀ (m e : List Byte) (c : Half), m.length = e.length →
    crcBytes c (List.zipWith (· ^^^ ·) m e) = crcBytes c m ^^^ crcBytes 0x0000#16 e)

/-- R60: the residue of a message with two trailer bytes is zero exactly when they are its CRC, low byte first. -/
def Obligations.ResidueIsZeroExactlyForTheTrailer : Prop :=
  ∀ (m : List Byte) (lo hi : Byte),
    let c := crcBytes 0xFFFF#16 m
    (crcBytes c [lo, hi] = 0x0000#16 ↔ lo = c.extractLsb' 0 8 ∧ hi = c.extractLsb' 8 8) ∧
    (crcBytes 0xFFFF#16 (m ++ [lo, hi]) = 0x0000#16 ↔ lo = c.extractLsb' 0 8 ∧ hi = c.extractLsb' 8 8)

/-- R61: one flipped bit anywhere in a frame with a correct trailer is always detected. -/
def Obligations.SingleBitErrorsDetected : Prop :=
  ∀ (frame : List Byte) (k j : Nat), 2 ≤ frame.length → k < frame.length → j < 8 →
    crcBytes 0xFFFF#16 (coveredBytes frame) = frameTrailer frame →
    let frame' := frame.modify k (· ^^^ (1#8 <<< j))
    crcBytes 0xFFFF#16 (coveredBytes frame') ≠ frameTrailer frame' ∧
    ∀ (minLen : Config.MinFrameLen) (s : State), minLen.len ≤ frame.length →
      ∃ t : State, frameVerify minLen frame' s = .next (.crcMismatch, t)

/-- R58: the reference request, the register after each byte, its trailer and its frame. -/
def Obligations.ReferenceRequest : Prop :=
  [0x01#8, 0x03#8, 0x00#8, 0x00#8, 0x00#8, 0x01#8].scanl crcByte 0xFFFF#16 =
    [0xFFFF#16, 0x807E#16, 0x2140#16, 0xF020#16, 0xD8F1#16, 0x8419#16, 0x0A84#16] ∧
  crc16Modbus [0x01#8, 0x03#8, 0x00#8, 0x00#8, 0x00#8, 0x01#8] = 0x0A84#16 ∧
  trailer 0x0A84#16 = [0x84#8, 0x0A#8] ∧
  ∀ s : State, ∃ t : State, frameGen [0x01#8, 0x03#8, 0x00#8, 0x00#8, 0x00#8, 0x01#8] s =
    .next ([0x01#8, 0x03#8, 0x00#8, 0x00#8, 0x00#8, 0x01#8, 0x84#8, 0x0A#8], t)

/-- A zero byte leaves exactly two register values unchanged, 0x0000 and 0xC001. The corner remark of 40_crc.md section 3 that a
zero byte changes a non-zero register is an example, not a law: notes/assumptions/9.md. -/
def Obligations.ZeroByteFixedPoints : Prop :=
  ∀ c : Half, crcByte c 0x00#8 = c ↔ c = 0x0000#16 ∨ c = 0xC001#16

/-! ### The six commands -/

/-- R53: `CRC.INIT`. -/
def Obligations.CrcInitEffect : Prop :=
  encode .crcInit = 0x1000000000#40 ∧
  ∀ s : State,
    exec .crcInit s = .next { block := { crc := 0xFFFF#16 }, inputs := s.inputs, response := some (rsp .ok 0) } ∧
    (s.block.crc = 0xFFFF#16 → ∃ t : State, exec .crcInit s = .next t ∧ t.block = s.block) ∧
    ∃ t t' : State, ∃ r : RspWord, issue .crcInit s = .next (r, t) ∧ issue .crcRead t = .next (rsp .ok 0x0000FFFF#32, t')

/-- 40_crc.md section 3: `CRC.UPD8` absorbs one byte, with the section's examples; of its corner cases, which registers a zero byte takes
to zero. -/
def Obligations.CrcUpd8Effect : Prop :=
  (∀ (b : Byte) (s : State),
    encode (.crcUpd8 b) = 0x2000000000#40 ||| b.setWidth 40 ∧
    exec (.crcUpd8 b) s =
      .next { block := { crc := crcByte s.block.crc b }, inputs := s.inputs, response := some (rsp .ok 0) }) ∧
  crcByte 0xFFFF#16 0x00#8 = 0x40BF#16 ∧
  (∀ c : Half, crcByte c 0x00#8 = 0x0000#16 ↔ c = 0x0000#16) ∧
  crcByte 0x807E#16 0x03#8 = 0x2140#16

/-- R55: `CRC.READ`. -/
def Obligations.CrcReadEffect : Prop :=
  encode .crcRead = 0x3000000000#40 ∧
  (∀ s : State,
    exec .crcRead s = .next { block := s.block, inputs := s.inputs, response := some (rsp .ok (0#16 ++ s.block.crc)) }) ∧
  (∀ s : State, s.block.crc = 0xFFFF#16 → ∃ t : State, issue .crcRead s = .next (rsp .ok 0x0000FFFF#32, t)) ∧
  (∀ s : State, ∃ (r : RspWord) (t t' : State), issue .crcRead s = .next (r, t) ∧ issue .crcRead t = .next (r, t')) ∧
  (∀ s : State, ∃ t t' : State,
    startFrame [0x01#8, 0x03#8, 0x00#8, 0x00#8, 0x00#8, 0x01#8] s = .next t ∧
    issue .crcRead t = .next (rsp .ok 0x00000A84#32, t'))

/-- R56: `CRC.CHECK`. -/
def Obligations.CrcCheckEffect : Prop :=
  (∀ (rx : Half) (s : State),
    encode (.crcCheck rx) = 0x4000000000#40 ||| rx.setWidth 40 ∧
    exec (.crcCheck rx) s = .next
      { block := s.block, inputs := s.inputs,
        response := some (if s.block.crc = rx then rsp .ok (0#16 ++ s.block.crc)
          else rsp .crcMismatch (0#16 ++ s.block.crc)) }) ∧
  (∀ first second : Byte, (receivedCrc first second).extractLsb' 0 8 = first ∧ (receivedCrc first second).extractLsb' 8 8 = second) ∧
  (∀ s : State, ∃ t : State, exec (.crcCheck (bswap16 s.block.crc)) s = .next t ∧
    (t.response = some (rsp .crcMismatch (0#16 ++ s.block.crc)) ↔
      s.block.crc.extractLsb' 0 8 ≠ s.block.crc.extractLsb' 8 8)) ∧
  (∀ s : State, s.block.crc = 0x0A84#16 → ∃ t t' : State,
    issue (.crcCheck 0x0A84#16) s = .next (rsp .ok 0x00000A84#32, t) ∧
    issue (.crcCheck 0x840A#16) s = .next (rsp .crcMismatch 0x00000A84#32, t'))

/-- R75: `SWP.PACK`, its result written out byte by byte. -/
def Obligations.SwpPackEffect : Prop :=
  (∀ (m : Mode) (x : Dword) (s : State),
    encode (.swpPack m x) = 0x8000000000#40 ||| (m.code.setWidth 40 <<< 34) ||| x.setWidth 40 ∧
    exec (.swpPack m x) s = .next { block := s.block, inputs := s.inputs, response := some (rsp .ok (perm m x)) }) ∧
  (∀ (b0 b1 b2 b3 : Byte) (s : State), ∃ t1 t2 t3 t4 : State,
    issue (.swpPack .abcd (streamWord b0 b1 b2 b3)) s = .next (rsp .ok (b0 ++ b1 ++ b2 ++ b3), t1) ∧
    issue (.swpPack .dcba (streamWord b0 b1 b2 b3)) s = .next (rsp .ok (b3 ++ b2 ++ b1 ++ b0), t2) ∧
    issue (.swpPack .badc (streamWord b0 b1 b2 b3)) s = .next (rsp .ok (b1 ++ b0 ++ b3 ++ b2), t3) ∧
    issue (.swpPack .cdab (streamWord b0 b1 b2 b3)) s = .next (rsp .ok (b2 ++ b3 ++ b0 ++ b1), t4)) ∧
  (∀ (m : Mode) (b : Byte), perm m (streamWord b b b b) = streamWord b b b b)

/-- R76: `SWP.UNPACK`, its stream bytes written out. -/
def Obligations.SwpUnpackEffect : Prop :=
  (∀ (m : Mode) (v : Dword) (s : State),
    encode (.swpUnpack m v) = 0x9000000000#40 ||| (m.code.setWidth 40 <<< 34) ||| v.setWidth 40 ∧
    exec (.swpUnpack m v) s = .next { block := s.block, inputs := s.inputs, response := some (rsp .ok (perm m v)) }) ∧
  (∀ (a b c d : Byte) (s : State), ∃ t1 t2 t3 t4 : State,
    issue (.swpUnpack .abcd (a ++ b ++ c ++ d)) s = .next (rsp .ok (streamWord a b c d), t1) ∧
    issue (.swpUnpack .dcba (a ++ b ++ c ++ d)) s = .next (rsp .ok (streamWord d c b a), t2) ∧
    issue (.swpUnpack .badc (a ++ b ++ c ++ d)) s = .next (rsp .ok (streamWord b a d c), t3) ∧
    issue (.swpUnpack .cdab (a ++ b ++ c ++ d)) s = .next (rsp .ok (streamWord c d a b), t4)) ∧
  (∀ b0 b1 b2 b3 : Byte,
    firstReg (streamWord b0 b1 b2 b3) = b0 ++ b1 ∧ secondReg (streamWord b0 b1 b2 b3) = b2 ++ b3 ∧
    lane (streamWord b0 b1 b2 b3) 0 = b0 ∧ lane (streamWord b0 b1 b2 b3) 1 = b1 ∧
    lane (streamWord b0 b1 b2 b3) 2 = b2 ∧ lane (streamWord b0 b1 b2 b3) 3 = b3)

/-- 60_exceptions.md section 1: `CRC_MISMATCH` comes only from a `CRC.CHECK` whose operand differs from the register, which it
leaves as it was, and no later response depends on it. -/
def Obligations.MismatchOnlyFromCheck : Prop :=
  (∀ (s t : State) (r : RspWord), step s = .next t → t.response = some r →
    (rspStatus r = 1#2 ↔ ∃ rx : Half, s.inputs.head? = some (.command (encode (.crcCheck rx))) ∧ s.block.crc ≠ rx)) ∧
  (∀ (rx : Half) (s : State), s.block.crc ≠ rx →
    exec (.crcCheck rx) s = .next { block := s.block, inputs := s.inputs, response := some (rsp .crcMismatch (s.block.crc.setWidth 32)) }) ∧
  (∀ (s : State) (w : CmdWord) (r : Option RspWord),
    step ((State.mk s.block s.inputs r).present (.command w)) = step (s.present (.command w)))

/-- R105: at most one abnormal status applies: legality is decided by the word alone, a legal `CRC.CHECK` is never illegal, reset
comes before everything, and `TOO_SHORT` before any command. -/
def Obligations.StatusPriority : Prop :=
  (∀ (s t : State) (w : CmdWord), step (s.present (.command w)) = .next t →
    ((∃ r, t.response = some r ∧ rspStatus r = 2#2) ↔ (decode w).instr? = none)) ∧
  (∀ (rx : Half) (s t : State) (r : RspWord), exec (.crcCheck rx) s = .next t → t.response = some r → rspStatus r ≠ 2#2) ∧
  (∀ (s : State) (w : CmdWord), step (s.present (.reset (some w))) =
    .next { block := { crc := 0xFFFF#16 }, inputs := s.inputs, response := none }) ∧
  (∀ (minLen : Config.MinFrameLen) (frame : List Byte) (s : State), frame.length < minLen.len →
    frameVerify minLen frame s = .next (.tooShort, s))

/-! ### The permutation -/

/-- R72: the four rows of the permutation table, lane by lane and as byte and word swaps; `V = perm(mode, S)` and
`S = perm(mode, V)` say the same; the stream order of the bytes `A B C D` of a value in each mode, in both directions. -/
def Obligations.PermTable : Prop :=
  (∀ x : Dword,
    let x0 : Byte := x.extractLsb' 24 8
    let x1 : Byte := x.extractLsb' 16 8
    let x2 : Byte := x.extractLsb' 8 8
    let x3 : Byte := x.extractLsb' 0 8
    (perm .abcd x = x0 ++ x1 ++ x2 ++ x3 ∧ perm .abcd x = x) ∧
    (perm .dcba x = x3 ++ x2 ++ x1 ++ x0 ∧ perm .dcba x = bswap32 x) ∧
    (perm .badc x = x1 ++ x0 ++ x3 ++ x2 ∧
      perm .badc x = bswap16 (x.extractLsb' 16 16) ++ bswap16 (x.extractLsb' 0 16)) ∧
    (perm .cdab x = x2 ++ x3 ++ x0 ++ x1 ∧ perm .cdab x = wswap32 x) ∧
    Mode.abcd.code = 0b00#2 ∧ Mode.dcba.code = 0b01#2 ∧ Mode.badc.code = 0b10#2 ∧ Mode.cdab.code = 0b11#2) ∧
  (∀ (m : Mode) (v s : Dword), v = perm m s ↔ s = perm m v) ∧
  (∀ a b c d : Byte,
    let v : Dword := a ++ b ++ c ++ d
    (perm .abcd v = streamWord a b c d ∧ v = perm .abcd (streamWord a b c d)) ∧
    (perm .dcba v = streamWord d c b a ∧ v = perm .dcba (streamWord d c b a)) ∧
    (perm .badc v = streamWord b a d c ∧ v = perm .badc (streamWord b a d c)) ∧
    (perm .cdab v = streamWord c d a b ∧ v = perm .cdab (streamWord c d a b)))

/-- R73: byte `i` of the result is byte `i xor k` of the argument; the two stages, which commute. -/
def Obligations.PermIsLaneXor : Prop :=
  ∀ (m : Mode) (x : Dword),
    (∀ i : Nat, i < 4 → lane (perm m x) i = lane x (i ^^^ laneXor m)) ∧
    perm m x = permStages m x ∧
    (let bytesStage (y : Dword) : Dword :=
        if bytesSwapped m then bswap16 (y.extractLsb' 16 16) ++ bswap16 (y.extractLsb' 0 16) else y
     let wordsStage (y : Dword) : Dword := if wordSwapped m then wswap32 y else y
     perm m x = wordsStage (bytesStage x) ∧ perm m x = bytesStage (wordsStage x)) ∧
    laneXor m = 2 * (m.code.getLsbD 0).toNat + (m.code.getLsbD 1 ^^ m.code.getLsbD 0).toNat ∧
    (laneXor .abcd = 0 ∧ laneXor .badc = 1 ∧ laneXor .cdab = 2 ∧ laneXor .dcba = 3)

/-- R74: involution, bijection, composition, that a mode moves whole bytes (its byte numbers are permuted, the same way in every
word, and no byte is changed), fixed values, and that distinct modes differ. -/
def Obligations.PermAlgebra : Prop :=
  (∀ (m : Mode) (x : Dword), perm m (perm m x) = x) ∧
  (∀ m : Mode, Function.Bijective (perm m)) ∧
  (∀ (m1 m2 m3 : Mode) (x : Dword), laneXor m3 = laneXor m1 ^^^ laneXor m2 →
    perm m1 (perm m2 x) = perm m3 x ∧ perm m2 (perm m1 x) = perm m3 x) ∧
  (∀ m1 m2 : Mode, ∃ m3 : Mode, laneXor m3 = laneXor m1 ^^^ laneXor m2) ∧
  (∀ x : Dword, perm .dcba (perm .badc x) = perm .cdab x ∧ perm .dcba (perm .cdab x) = perm .badc x ∧
    perm .badc (perm .cdab x) = perm .dcba x ∧ perm .abcd x = x) ∧
  (∀ m : Mode, ∃ moved : Equiv.Perm (Fin 4), ∀ (x : Dword) (i : Fin 4), lane (perm m x) i = lane x (moved i)) ∧
  (∀ m : Mode, perm m 0x00000000#32 = 0x00000000#32 ∧ perm m 0xFFFFFFFF#32 = 0xFFFFFFFF#32 ∧
    ∀ (b : Byte), perm m (b ++ b ++ b ++ b) = b ++ b ++ b ++ b) ∧
  (perm .abcd 0x12345678#32 = 0x12345678#32 ∧ perm .dcba 0x12345678#32 = 0x78563412#32 ∧
    perm .badc 0x12345678#32 = 0x34127856#32 ∧ perm .cdab 0x12345678#32 = 0x56781234#32)

/-- R77: the two swap commands undo each other through the machine, and compute the same function. -/
def Obligations.PackAndUnpackAreInverse : Prop :=
  ∀ (m : Mode) (x : Dword) (s : State),
    (∃ (r r' : RspWord) (t t' : State), issue (.swpUnpack m x) s = .next (r, t) ∧
      issue (.swpPack m (rspData r)) t = .next (r', t') ∧ rspData r' = x) ∧
    (∃ (r r' : RspWord) (t t' : State), issue (.swpPack m x) s = .next (r, t) ∧
      issue (.swpUnpack m (rspData r)) t = .next (r', t') ∧ rspData r' = x) ∧
    issue (.swpPack m x) s = issue (.swpUnpack m x) s

/-- R78: the word-level table, in both directions, through the host sequences, and what the table tabulates:
`words_to_int32(mode, W0, W1) = perm(mode, W0 ‖ W1)`. -/
def Obligations.WordLevelView : Prop :=
  (∀ (m : Mode) (w0 w1 : Half) (s : State), ∃ t : State, swpW2i m w0 w1 s = .next (perm m (w0 ++ w1), t)) ∧
  (∀ (w0 w1 : Half) (s : State), ∃ t1 t2 t3 t4 : State,
    swpW2i .abcd w0 w1 s = .next (w0 ++ w1, t1) ∧ swpW2i .dcba w0 w1 s = .next (bswap16 w1 ++ bswap16 w0, t2) ∧
    swpW2i .badc w0 w1 s = .next (bswap16 w0 ++ bswap16 w1, t3) ∧ swpW2i .cdab w0 w1 s = .next (w1 ++ w0, t4)) ∧
  (∀ (v : Dword) (s : State),
    let hi : Half := v.extractLsb' 16 16
    let lo : Half := v.extractLsb' 0 16
    ∃ t1 t2 t3 t4 : State,
    swpI2w .abcd v s = .next ((hi, lo), t1) ∧ swpI2w .dcba v s = .next ((bswap16 lo, bswap16 hi), t2) ∧
    swpI2w .badc v s = .next ((bswap16 hi, bswap16 lo), t3) ∧ swpI2w .cdab v s = .next ((lo, hi), t4))

/-- R79: the default mode of each vendor gives the value the document states for that vendor's wire bytes; the conversions for a
host that holds little-endian decoded words. -/
def Obligations.VendorStatementsAgree : Prop :=
  ∀ b0 b1 b2 b3 : Byte,
    let s := streamWord b0 b1 b2 b3
    let r0 : Half := b0 ++ b1
    let r1 : Half := b2 ++ b3
    let word0 : Half := b1 ++ b0
    let word1 : Half := b3 ++ b2
    (Config.defaultMode .modbus = .abcd ∧ perm (Config.defaultMode .modbus) s = r0 ++ r1) ∧
    (Config.defaultMode .siemens = .abcd ∧ perm (Config.defaultMode .siemens) s = b0 ++ b1 ++ b2 ++ b3) ∧
    (Config.defaultMode .mitsubishi = .dcba ∧ perm (Config.defaultMode .mitsubishi) s = word1 ++ word0 ∧
      perm (Config.defaultMode .mitsubishi) s = word0.setWidth 32 ||| (word1.setWidth 32 <<< 16)) ∧
    (Config.defaultMode .lsElectric = .dcba ∧ perm (Config.defaultMode .lsElectric) s = b3 ++ b2 ++ b1 ++ b0) ∧
    s = bswap16 word0 ++ bswap16 word1 ∧
    perm .dcba (bswap16 word0 ++ bswap16 word1) = word1 ++ word0 ∧ perm .cdab (word0 ++ word1) = word1 ++ word0 ∧
    ∀ v : Vendor, Config.defaultMode v ≠ .badc ∧ Config.defaultMode v ≠ .cdab

/-- 41_swap.md section 3: the 16-bit packing and its array form, and the packing as the low half of a `BADC` permutation. The spec
has the round trip for non-empty arrays only; that the empty array converts to the empty array, and back, is the model's choice
(log entry 14). -/
def Obligations.HalfPackingSymmetry : Prop :=
  (∀ b0 b1 : Byte, pack16 .be b0 b1 = b0 ++ b1 ∧ pack16 .le b0 b1 = b1 ++ b0 ∧
    pack16 .le b0 b1 = (perm .badc ((0#16 : Half) ++ (b0 ++ b1 : Half))).extractLsb' 0 16) ∧
  (∀ h : Half, unpack16 .be h = (h.extractLsb' 8 8, h.extractLsb' 0 8) ∧
    unpack16 .le h = (h.extractLsb' 0 8, h.extractLsb' 8 8)) ∧
  (∀ (o : ByteOrder) (h : Half), pack16 o (unpack16 o h).1 (unpack16 o h).2 = h) ∧
  (∀ (o : ByteOrder) (xs : List Half), shortsToBytes o xs = xs.flatMap fun h => [(unpack16 o h).1, (unpack16 o h).2]) ∧
  (∀ (o : ByteOrder) (xs : List Half), bytesToShorts o (shortsToBytes o xs) = some xs)

/-! ### The host sequences -/

/-- R85: `crc.calc` gives the CRC of its bytes in `k + 2` commands, every response `OK`. -/
def Obligations.CrcCalcResult : Prop :=
  (∀ (m : List Byte) (s : State), ∃ t : State, crcCalc m s = .next (crcBytes 0xFFFF#16 m, t) ∧
    t.block.crc = crcBytes 0xFFFF#16 m ∧ t.inputs = s.inputs) ∧
  (∀ (m : List Byte) (s : State),
    let cmds := Instr.crcInit :: (m.map Instr.crcUpd8 ++ [Instr.crcRead])
    let rs := responses cmds.length { s with inputs := cmds.map (fun i => HostInput.command (encode i)) ++ s.inputs }
    cmds.length = m.length + 2 ∧ rs.length = m.length + 2 ∧ (∀ r ∈ rs, rspStatus r = Status.ok.code) ∧
    rs.getLast? = some (rsp .ok (0#16 ++ crcBytes 0xFFFF#16 m))) ∧
  (∀ s : State, ∃ t : State, crcCalc [] s = .next (0xFFFF#16, t)) ∧
  (∀ s : State, ∃ t : State, crcCalc [0x01#8, 0x03#8, 0x00#8, 0x00#8, 0x00#8, 0x01#8] s = .next (0x0A84#16, t))

/-- R86 and R22: `frame.gen` appends the CRC low byte and then its high byte, and a receiver rebuilds the CRC from them. -/
def Obligations.FrameGenAppendsTrailer : Prop :=
  (∀ (m : List Byte) (s : State),
    let c := crcBytes 0xFFFF#16 m
    ∃ t : State, frameGen m s = .next (m ++ [c.extractLsb' 0 8, c.extractLsb' 8 8], t) ∧
      (m ++ [c.extractLsb' 0 8, c.extractLsb' 8 8]).length = m.length + 2 ∧
      frameTrailer (m ++ [c.extractLsb' 0 8, c.extractLsb' 8 8]) = c ∧
      coveredBytes (m ++ [c.extractLsb' 0 8, c.extractLsb' 8 8]) = m) ∧
  (∀ s : State, ∃ t : State, frameGen [0x01#8, 0x03#8, 0x00#8, 0x00#8, 0x00#8, 0x01#8] s =
    .next ([0x01#8, 0x03#8, 0x00#8, 0x00#8, 0x00#8, 0x01#8, 0x84#8, 0x0A#8], t))

/-- R87: the verdict of `frame.verify` for every frame and every minimum length of at least 2. -/
def Obligations.FrameVerifyVerdict : Prop :=
  (∀ (minLen : Config.MinFrameLen) (frame : List Byte) (s : State),
    (frame.length < minLen.len → frameVerify minLen frame s = .next (.tooShort, s)) ∧
    (minLen.len ≤ frame.length → ∃ t : State, frameVerify minLen frame s = .next
        (if crcBytes 0xFFFF#16 (frame.take (frame.length - 2)) =
            frame.getD (frame.length - 1) 0 ++ frame.getD (frame.length - 2) 0 then .valid else .crcMismatch, t) ∧
      t.block.crc = crcBytes 0xFFFF#16 (frame.take (frame.length - 2)) ∧ t.inputs = s.inputs)) ∧
  Config.minFrameLen.len = 4 ∧
  (∀ s : State, ∃ t t' : State,
    frameVerify Config.minFrameLen [0x01#8, 0x03#8, 0x00#8, 0x00#8, 0x00#8, 0x01#8, 0x84#8, 0x0A#8] s = .next (.valid, t) ∧
    frameVerify Config.minFrameLen [0x01#8, 0x03#8, 0x00#8, 0x10#8, 0x00#8, 0x01#8, 0x84#8, 0x0A#8] s = .next (.crcMismatch, t') ∧
    t'.block.crc = 0xCF85#16)

/-- R88: `frame.verify_residue` gives the same verdict as `frame.verify` on every frame. -/
def Obligations.ResidueVerifyAgrees : Prop :=
  (∀ (minLen : Config.MinFrameLen) (frame : List Byte) (s : State), ∃ (v : Verdict) (t t' : State),
    frameVerify minLen frame s = .next (v, t) ∧ frameVerifyResidue minLen frame s = .next (v, t')) ∧
  (∀ (minLen : Config.MinFrameLen) (frame : List Byte) (s : State),
    (frame.length < minLen.len → frameVerifyResidue minLen frame s = .next (.tooShort, s)) ∧
    (minLen.len ≤ frame.length → ∃ t : State, frameVerifyResidue minLen frame s =
        .next (if crcBytes 0xFFFF#16 frame = 0x0000#16 then .valid else .crcMismatch, t) ∧
      t.block.crc = crcBytes 0xFFFF#16 frame)) ∧
  crcBytes 0xFFFF#16 [0x01#8, 0x03#8, 0x00#8, 0x00#8, 0x00#8, 0x01#8, 0x84#8, 0x0A#8] = 0x0000#16 ∧
  crcBytes 0xFFFF#16 [0x01#8, 0x03#8, 0x00#8, 0x00#8, 0x00#8, 0x01#8, 0x85#8, 0x0A#8] = 0x9001#16

/-- A generated frame of at least the minimum length verifies, whatever the register held before (42_frame_pseudo_ops.md
section 1). -/
def Obligations.GeneratedFramesVerify : Prop :=
  ∀ (minLen : Config.MinFrameLen) (m : List Byte) (s s' : State), minLen.len ≤ m.length + 2 →
    ∃ (frame : List Byte) (t t' : State), frameGen m s = .next (frame, t) ∧
      frameVerify minLen frame s' = .next (.valid, t')

/-- R89 and R90: the two word-level sequences, that they undo each other, and their examples. -/
def Obligations.WordSequencesAreInverse : Prop :=
  (∀ (m : Mode) (w0 w1 : Half) (s : State), ∃ t : State, swpW2i m w0 w1 s = .next (perm m (w0 ++ w1), t) ∧
    ∃ t' : State, swpI2w m (perm m (w0 ++ w1)) t = .next ((w0, w1), t')) ∧
  (∀ (m : Mode) (v : Dword) (s : State), ∃ t : State,
    swpI2w m v s = .next (((perm m v).extractLsb' 16 16, (perm m v).extractLsb' 0 16), t) ∧
    ∃ t' : State, swpW2i m ((perm m v).extractLsb' 16 16) ((perm m v).extractLsb' 0 16) t = .next (v, t')) ∧
  (∀ s : State, ∃ t t' : State, swpW2i .cdab 0x5678#16 0x1234#16 s = .next (0x12345678#32, t) ∧
    swpI2w .dcba 0x12345678#32 s = .next ((0x7856#16, 0x3412#16), t'))

/-- R91: one 16-bit element; big-endian issues no command. -/
def Obligations.HalfSequence : Prop :=
  (∀ (b0 b1 : Byte) (s : State), swpH16 .be (b0 ++ b1) s = .next (pack16 .be b0 b1, s) ∧
    ∃ t : State, swpH16 .le (b0 ++ b1) s = .next (pack16 .le b0 b1, t)) ∧
  (∀ (o : ByteOrder) (h : Half) (s : State), ∃ (h' : Half) (t t' : State),
    swpH16 o h s = .next (h', t) ∧ swpH16 o h' t = .next (h, t')) ∧
  (∀ s : State, ∃ t : State, swpH16 .le 0x3412#16 s = .next (0x1234#16, t))

/-- 42_frame_pseudo_ops.md section 3: the combined read gives a value only from a valid frame, and it is the permutation of the
four covered bytes the host names. -/
def Obligations.ReadValueOnlyFromValidFrames : Prop :=
  ∀ (minLen : Config.MinFrameLen) (m : Mode) (place : Nat) (frame : List Byte) (s : State), ∃ (v : Verdict) (t t' : State),
    frameVerify minLen frame s = .next (v, t) ∧
    (v ≠ .valid → readValue minLen m place frame s = .next (.failed v, t)) ∧
    (v = .valid → place + 4 ≤ frame.length - 2 → readValue minLen m place frame s = .next
      (.value (perm m (streamWord (frame.getD place 0) (frame.getD (place + 1) 0) (frame.getD (place + 2) 0)
        (frame.getD (place + 3) 0))), t'))

/-! ### Hazards -/

/-- 70_reset_and_hazards.md section 2: without `CRC.INIT` the bytes are absorbed on top of what the register holds, and unless
that is the initial value the result is not the frame's CRC. -/
def Obligations.WithoutInitTheCrcIsWrong : Prop :=
  ∀ (m : List Byte) (s : State), ∃ t : State, absorb m s = .next t ∧ t.block.crc = crcBytes s.block.crc m ∧
    (t.block.crc = crc16Modbus m ↔ s.block.crc = 0xFFFF#16)

/-- 70_reset_and_hazards.md section 2: a sender that emits the CRC high byte first makes a frame every receiver rejects, unless the two bytes are equal. -/
def Obligations.SwappedTrailerRejected : Prop :=
  (∀ (minLen : Config.MinFrameLen) (m : List Byte) (s : State), minLen.len ≤ m.length + 2 →
    let c := crcBytes 0xFFFF#16 m
    ∃ t : State, frameVerify minLen (m ++ [c.extractLsb' 8 8, c.extractLsb' 0 8]) s = .next
      (if c.extractLsb' 0 8 = c.extractLsb' 8 8 then .valid else .crcMismatch, t)) ∧
  (∀ s : State, ∃ t : State,
    frameVerify Config.minFrameLen [0x01#8, 0x03#8, 0x00#8, 0x00#8, 0x00#8, 0x01#8, 0x0A#8, 0x84#8] s
      = .next (.crcMismatch, t) ∧ t.block.crc = 0x0A84#16) ∧
  frameTrailer [0x01#8, 0x03#8, 0x00#8, 0x00#8, 0x00#8, 0x01#8, 0x0A#8, 0x84#8] = 0x840A#16 ∧
  crcBytes 0xFFFF#16 [0x01#8, 0x03#8, 0x00#8, 0x00#8, 0x00#8, 0x01#8, 0x0A#8, 0x84#8] = 0xC4E5#16

/-- 70_reset_and_hazards.md section 2: writing with one mode and reading with another gives the value permuted by their
composition, silently: both commands are answered `OK`, whatever the modes. -/
def Obligations.WrongModePermutesSilently : Prop :=
  (∀ (m1 m2 m3 : Mode) (v : Dword) (s : State), laneXor m3 = laneXor m1 ^^^ laneXor m2 →
    ∃ (r r' : RspWord) (t t' : State), issue (.swpUnpack m1 v) s = .next (r, t) ∧
      issue (.swpPack m2 (rspData r)) t = .next (r', t') ∧ r = rsp .ok (perm m1 v) ∧ r' = rsp .ok (perm m3 v) ∧
      (rspData r' = v ↔ perm m3 v = v)) ∧
  (∀ s : State, ∃ (r : RspWord) (t t' : State), issue (.swpUnpack .abcd 0x12345678#32) s = .next (r, t) ∧
    r = rsp .ok 0x12345678#32 ∧ issue (.swpPack .cdab (rspData r)) t = .next (rsp .ok 0x56781234#32, t'))
end

