-- ==== Sys2Proof/Laws/Flags.lean ====
section
/-! SUPPORT. The response word and its two fields (spec/30_encoding.md R36), and the status of a check (40_crc.md R56). -/

namespace Sys2Proof.Machine

@[simp] theorem rspStatus_rsp (st : Status) (d : Dword) : rspStatus (rsp st d) = st.code := by
  refine BitVec.eq_of_getLsbD_eq fun i hi => ?_
  simp only [rspStatus, rsp, BitVec.getLsbD_extractLsb', BitVec.getLsbD_append]
  interval_cases i <;> simp

@[simp] theorem rspData_rsp (st : Status) (d : Dword) : rspData (rsp st d) = d := by
  refine BitVec.eq_of_getLsbD_eq fun i hi => ?_
  simp only [rspData, rsp, BitVec.getLsbD_extractLsb', BitVec.getLsbD_append]
  simp [hi]

theorem Status.code_injective {a b : Status} (h : a.code = b.code) : a = b := by
  revert h; cases a <;> cases b <;> decide

theorem checkStatus_ok_iff (crc rx : Half) : checkStatus crc rx = .ok ↔ crc = rx := by
  by_cases h : crc = rx <;> simp [checkStatus, h]

theorem checkStatus_mismatch_iff (crc rx : Half) : checkStatus crc rx = .crcMismatch ↔ crc ≠ rx := by
  by_cases h : crc = rx <;> simp [checkStatus, h]

end Sys2Proof.Machine
end

