-- ==== Sys2Proof/Laws/Ops.lean ====
section
/-! SUPPORT. The CRC function over sequences (spec/40_crc.md R52). -/

namespace Sys2Proof.Machine

@[simp] theorem crcBytes_nil (c : Half) : crcBytes c [] = c := rfl

@[simp] theorem crcBytes_cons (c : Half) (b : Byte) (m : List Byte) : crcBytes c (b :: m) = crcBytes (crcByte c b) m := rfl

theorem crcBytes_append (c : Half) (m m' : List Byte) : crcBytes c (m ++ m') = crcBytes (crcBytes c m) m' := by
  induction m generalizing c with
  | nil => rfl
  | cons b m ih => exact ih (crcByte c b)

/-- A byte step is eight bit steps. -/
theorem crcByte_eq (c : Half) (b : Byte) : crcByte c b =
    crcBit (crcBit (crcBit (crcBit (crcBit (crcBit (crcBit (crcBit c (b.getLsbD 0)) (b.getLsbD 1)) (b.getLsbD 2)) (b.getLsbD 3))
      (b.getLsbD 4)) (b.getLsbD 5)) (b.getLsbD 6)) (b.getLsbD 7) := rfl

end Sys2Proof.Machine
end

