-- ==== Sys2Proof/Laws/PerInstr.lean ====
section
/-! SUPPORT. One lemma per command: the word it is encoded to meets the mask and match of a row of the opcode table
(spec/30_encoding.md R39). -/

namespace Sys2Proof.Laws.Encoding

/-- The encoding of the command meets some row of the opcode table. -/
def Statement (i : Instr) : Prop :=
  ∃ r ∈ opcodeRows, r.spells (encode i) = true

/-- A word meets a row when it meets it in every bit. -/
theorem spells_of_bits (r : OpcodeRow) (w : CmdWord)
    (h : ∀ k < 40, (w.getLsbD k && r.mask.getLsbD k) = r.pattern.getLsbD k) : r.spells w = true := by
  simp only [OpcodeRow.spells, beq_iff_eq]
  refine BitVec.eq_of_getLsbD_eq fun k hk => ?_
  simpa using h k hk

theorem crcInit : Statement .crcInit := by
  unfold Statement; decide

theorem crcUpd8 (byte : Byte) : Statement (.crcUpd8 byte) := by
  refine ⟨⟨"CRC.UPD8", 0xFFFFFFFF00#40, 0x2000000000#40⟩, by decide, spells_of_bits _ _ fun k hk => ?_⟩
  simp only [encode, encodeFields, CmdFields.toWord, BitVec.getLsbD_append, BitVec.getLsbD_setWidth]
  interval_cases k <;> simp

theorem crcRead : Statement .crcRead := by
  unfold Statement; decide

theorem crcCheck (rx : Half) : Statement (.crcCheck rx) := by
  refine ⟨⟨"CRC.CHECK", 0xFFFFFF0000#40, 0x4000000000#40⟩, by decide, spells_of_bits _ _ fun k hk => ?_⟩
  simp only [encode, encodeFields, CmdFields.toWord, BitVec.getLsbD_append, BitVec.getLsbD_setWidth]
  interval_cases k <;> simp

theorem swpPack (mode : Mode) (s : Dword) : Statement (.swpPack mode s) := by
  refine ⟨⟨"SWP.PACK", 0xF300000000#40, 0x8000000000#40⟩, by decide, spells_of_bits _ _ fun k hk => ?_⟩
  simp only [encode, encodeFields, CmdFields.toWord, BitVec.getLsbD_append]
  interval_cases k <;> simp

theorem swpUnpack (mode : Mode) (v : Dword) : Statement (.swpUnpack mode v) := by
  refine ⟨⟨"SWP.UNPACK", 0xF300000000#40, 0x9000000000#40⟩, by decide, spells_of_bits _ _ fun k hk => ?_⟩
  simp only [encode, encodeFields, CmdFields.toWord, BitVec.getLsbD_append]
  interval_cases k <;> simp

end Sys2Proof.Laws.Encoding
end

