-- ==== Sys2Proof/Laws/State.lean ====
section
/-! SUPPORT. One lemma per field per update of the state, so that no later proof unfolds a record update. -/

namespace Sys2Proof.Machine

variable (s : State) (v : Half) (st : Status) (d : Dword) (ev : HostInput)

@[simp] theorem State.crc_eq : s.crc = s.block.crc := rfl

@[simp] theorem State.setCrc_block : (s.setCrc v).block = { crc := v } := rfl
@[simp] theorem State.setCrc_inputs : (s.setCrc v).inputs = s.inputs := rfl
@[simp] theorem State.setCrc_response : (s.setCrc v).response = s.response := rfl

@[simp] theorem State.respond_block : (s.respond st d).block = s.block := rfl
@[simp] theorem State.respond_inputs : (s.respond st d).inputs = s.inputs := rfl
@[simp] theorem State.respond_response : (s.respond st d).response = some (rsp st d) := rfl

@[simp] theorem State.raiseIllegalCmd_block : s.raiseIllegalCmd.block = s.block := rfl
@[simp] theorem State.raiseIllegalCmd_inputs : s.raiseIllegalCmd.inputs = s.inputs := rfl
@[simp] theorem State.raiseIllegalCmd_response : s.raiseIllegalCmd.response = some (rsp .illegalCmd 0) := rfl

@[simp] theorem State.applyReset_block : s.applyReset.block = { crc := Config.crcInit } := rfl
@[simp] theorem State.applyReset_inputs : s.applyReset.inputs = s.inputs := rfl
@[simp] theorem State.applyReset_response : s.applyReset.response = none := rfl

@[simp] theorem State.idle_block : s.idle.block = s.block := rfl
@[simp] theorem State.idle_inputs : s.idle.inputs = s.inputs := rfl
@[simp] theorem State.idle_response : s.idle.response = none := rfl

@[simp] theorem State.accepted_block : s.accepted.block = s.block := rfl
@[simp] theorem State.accepted_inputs : s.accepted.inputs = s.inputs.tail := rfl
@[simp] theorem State.accepted_response : s.accepted.response = s.response := rfl

@[simp] theorem State.present_block : (s.present ev).block = s.block := rfl
@[simp] theorem State.present_inputs : (s.present ev).inputs = ev :: s.inputs := rfl
@[simp] theorem State.present_response : (s.present ev).response = s.response := rfl

/-- What is presented is what is accepted next, and accepting it gives the state back. -/
@[simp] theorem State.nextInput_present : (s.present ev).nextInput = some ev := rfl
@[simp] theorem State.accepted_present : (s.present ev).accepted = s := rfl

end Sys2Proof.Machine
end

