-- ==== Sys2Proof/Laws/Step.lean ====
section
/-! SUPPORT. What a step does with each input (spec/10_state.md R16; 70_reset_and_hazards.md R120), and how outcomes chain. -/

namespace Sys2Proof.Machine

/-- Everything a step can do: it answers, and the input it accepted tells how. -/
theorem step_cases (s : State) :
    (s.inputs = [] ∧ step s = .next s.accepted.idle) ∨
    (∃ p rest, s.inputs = .reset p :: rest ∧ step s = .next s.accepted.applyReset) ∨
    (∃ w rest, s.inputs = .command w :: rest ∧ step s = runWord w s.accepted) := by
  obtain ⟨block, inputs, response⟩ := s
  cases inputs with
  | nil => exact .inl ⟨rfl, rfl⟩
  | cons ev rest =>
    cases ev with
    | reset p => exact .inr (.inl ⟨p, rest, rfl, rfl⟩)
    | command w => exact .inr (.inr ⟨w, rest, rfl, rfl⟩)

@[simp] theorem step_present_command (s : State) (w : CmdWord) : step (s.present (.command w)) = runWord w s := rfl

@[simp] theorem step_present_reset (s : State) (p : Option CmdWord) : step (s.present (.reset p)) = .next s.applyReset := rfl

theorem runWord_command {w : CmdWord} {i : Instr} (h : decode w = .command i) (s : State) : runWord w s = exec i s := by
  simp [runWord, h]

theorem runWord_illegal {w : CmdWord} {why : Illegal} (h : decode w = .illegal why) (s : State) :
    runWord w s = .next s.raiseIllegalCmd := by
  simp [runWord, h]

@[simp] theorem andThen_next {α β : Type} (a : α) (k : α → Host.Outcome β Fault Refusal) : andThen (.next a) k = k a := rfl

theorem andThen_assoc {α β γ : Type} (o : Host.Outcome α Fault Refusal) (k : α → Host.Outcome β Fault Refusal)
    (k' : β → Host.Outcome γ Fault Refusal) : andThen (andThen o k) k' = andThen o fun a => andThen (k a) k' := by
  cases o <;> rfl

/-- Issuing a command is executing it and taking its response, once its word decodes back to it. -/
theorem issue_eq {i : Instr} (h : decode (encode i) = .command i) (s : State) : issue i s = andThen (exec i s) takeResponse := by
  simp [issue, runWord_command h]

end Sys2Proof.Machine
end

