-- ==== Sys2Proof/Machine/Assembler.lean ====
section
/-! DEFINITION. The textual syntax of the six commands (spec/30_encoding.md R44), on a line given as its list of characters. -/

namespace Sys2Proof

/-- A capital letter as its small one: mnemonics are case-insensitive (R44). -/
def asmLower (c : Char) : Char :=
  if 65 ≤ c.toNat ∧ c.toNat ≤ 90 then Char.ofNat (c.toNat + 32) else c

/-- The words of a line: blanks and commas separate, `;` starts a comment (R44). -/
def asmWords : List Char → List Char → List (List Char)
  | [], word => if word = [] then [] else [word.reverse]
  | c :: rest, word =>
    if c = ';' then (if word = [] then [] else [word.reverse])
    else if c = ' ' ∨ c = ',' then (if word = [] then [] else [word.reverse]) ++ asmWords rest []
    else asmWords rest (asmLower c :: word)

/-- The value of one small hexadecimal digit. -/
def asmDigit (c : Char) : Option Nat :=
  if 48 ≤ c.toNat ∧ c.toNat ≤ 57 then some (c.toNat - 48)
  else if 97 ≤ c.toNat ∧ c.toNat ≤ 102 then some (c.toNat - 87)
  else none

/-- The value of a run of hexadecimal digits, most significant first. -/
def asmDigits : List Char → Nat → Option Nat
  | [], n => some n
  | c :: rest, n => (asmDigit c).bind fun d => asmDigits rest (16 * n + d)

/-- A hexadecimal operand with `0x` (R44). One that does not fit its field spells no command (DESIGN CHOICE,
notes/assumptions/8.md, safe). -/
def asmOperand (width : Nat) : List Char → Option (BitVec width)
  | '0' :: 'x' :: d :: rest =>
    (asmDigits (d :: rest) 0).bind fun n => if n < 2 ^ width then some (BitVec.ofNat width n) else none
  | _ => none

/-- A mode operand is one of the four names (R44). -/
def asmMode (word : List Char) : Option Mode :=
  if word = ['a', 'b', 'c', 'd'] then some .abcd
  else if word = ['d', 'c', 'b', 'a'] then some .dcba
  else if word = ['b', 'a', 'd', 'c'] then some .badc
  else if word = ['c', 'd', 'a', 'b'] then some .cdab
  else none

/-- A swap command's two operands. -/
def asmSwap (make : Mode → Dword → Instr) (mode operand : List Char) : Option Instr :=
  (asmMode mode).bind fun m => (asmOperand 32 operand).map (make m)

/-- The command of one line, if the line spells one (R44). -/
def assemble (line : List Char) : Option Instr :=
  match asmWords line [] with
  | [m] =>
    if m = ['c', 'r', 'c', '.', 'i', 'n', 'i', 't'] then some .crcInit
    else if m = ['c', 'r', 'c', '.', 'r', 'e', 'a', 'd'] then some .crcRead
    else none
  | [m, a] =>
    if m = ['c', 'r', 'c', '.', 'u', 'p', 'd', '8'] then (asmOperand 8 a).map .crcUpd8
    else if m = ['c', 'r', 'c', '.', 'c', 'h', 'e', 'c', 'k'] then (asmOperand 16 a).map .crcCheck
    else none
  | [m, a, b] =>
    if m = ['s', 'w', 'p', '.', 'p', 'a', 'c', 'k'] then asmSwap .swpPack a b
    else if m = ['s', 'w', 'p', '.', 'u', 'n', 'p', 'a', 'c', 'k'] then asmSwap .swpUnpack a b
    else none
  | _ => none

end Sys2Proof
end

