-- ==== Sys2Proof/Tests/Slice0.lean ====
section
/-! SUPPORT. The model's own tests: vectors of spec/95_test_vectors.md and of the rules' examples, an ill-formed command word for
each check of WellFormed.lean, and for each statement with hypotheses a state and operands that meet them (`test_witness_...`). -/

namespace Sys2Proof.Tests

open Sys2Proof Sys2Proof.Machine

/-- A state that holds `crc`, with nothing presented and no response on the port. -/
def holding (crc : Half) : State :=
  { block := { crc := crc }, inputs := [], response := none }

/-- The register and the response an outcome shows. -/
def shown (o : Host.Outcome State Fault Refusal) : Option (Half × Option RspWord) :=
  match o with
  | .next t => some (t.crc, t.response)
  | .fault _ => none
  | .refused _ => none

/-- The register and the response after one step on the word `w`, from a register that holds `crc`. -/
def stepWord (crc : Half) (w : CmdWord) : Option (Half × Option RspWord) :=
  shown (step ((holding crc).present (.command w)))

/-- The result of a host sequence, without the state it leaves. -/
def result {α : Type} (o : Host.Outcome (α × State) Fault Refusal) : Option α :=
  match o with
  | .next p => some p.1
  | .fault _ => none
  | .refused _ => none

/-- The reference request and its frame (95_test_vectors.md section 1.1). -/
def request : List Byte := [0x01#8, 0x03#8, 0x00#8, 0x00#8, 0x00#8, 0x01#8]

/-- The frame of the reference request (95_test_vectors.md section 1.1). -/
def requestFrame : List Byte := request ++ [0x84#8, 0x0A#8]

/-- The response frame of program P2 (95_test_vectors.md section 4). -/
def responseFrame : List Byte :=
  [0x01#8, 0x03#8, 0x04#8, 0x00#8, 0x01#8, 0x00#8, 0x02#8, 0x2A#8, 0x32#8]

/-- The least minimum length 00_scope.md R3 allows. -/
def shortestLen : Config.MinFrameLen := ⟨2, by decide⟩

/-! ### WellFormed -/

theorem test_wf_accepts_legal_fields : (CmdFields.mk 4 0 0 0xFFFF#32).wellFormed = true := by decide

theorem test_wf_refuses_unassigned_op : (CmdFields.mk 5 0 0 0).wellFormed = false := by decide

theorem test_wf_refuses_reserved_bits : (CmdFields.mk 8 0 1 0).wellFormed = false := by decide

theorem test_wf_refuses_mode_in_crc : (CmdFields.mk 1 1 0 0).wellFormed = false := by decide

theorem test_wf_refuses_init_data : (CmdFields.mk 1 0 0 1).wellFormed = false := by decide

theorem test_wf_refuses_upd8_data : (CmdFields.mk 2 0 0 0x100#32).wellFormed = false := by decide

theorem test_wf_refuses_read_data : (CmdFields.mk 3 0 0 1).wellFormed = false := by decide

theorem test_wf_refuses_check_data : (CmdFields.mk 4 0 0 0x10000#32).wellFormed = false := by decide

/-! ### Decoding: words written out from the rows of 30_encoding.md R39, and the words of 95_test_vectors.md section 2.5 -/

theorem test_decode_init : decode 0b0001000000000000000000000000000000000000#40 = .command .crcInit := by decide

theorem test_decode_upd8 :
    decode 0b0010000000000000000000000000000011111111#40 = .command (.crcUpd8 0xFF#8) := by decide

theorem test_decode_read : decode 0b0011000000000000000000000000000000000000#40 = .command .crcRead := by decide

theorem test_decode_check :
    decode 0b0100000000000000000000000000101010000100#40 = .command (.crcCheck 0x0A84#16) := by decide

theorem test_decode_pack_every_mode :
    decode 0x8012345678#40 = .command (.swpPack .abcd 0x12345678#32) ∧
    decode 0x8412345678#40 = .command (.swpPack .dcba 0x12345678#32) ∧
    decode 0x8812345678#40 = .command (.swpPack .badc 0x12345678#32) ∧
    decode 0x8C12345678#40 = .command (.swpPack .cdab 0x12345678#32) := by decide

theorem test_decode_unpack :
    decode 0b1001110001000001001000000000000000000000#40 = .command (.swpUnpack .cdab 0x41200000#32) := by decide

theorem test_decode_illegal_words :
    [0x0000000000#40, 0xFFFFFFFFFF#40, 0x5000000000#40, 0xA000000000#40, 0x2000000100#40, 0x4000010000#40, 0x3000000001#40,
      0x1000000001#40, 0x1400000000#40, 0x8100000000#40, 0x9200000000#40].all (fun w => (decode w).instr? = none) = true := by
  decide +kernel

/-- The host's question, on the six matches of spec/opcode_table.json. -/
theorem test_decode_table_words :
    decodeTableWord 40 0x1000000000 = some .crcInit ∧ decodeTableWord 40 0x2000000000 = some (.crcUpd8 0) ∧
    decodeTableWord 40 0x3000000000 = some .crcRead ∧ decodeTableWord 40 0x4000000000 = some (.crcCheck 0) ∧
    decodeTableWord 40 0x8000000000 = some (.swpPack .abcd 0) ∧
    decodeTableWord 40 0x9000000000 = some (.swpUnpack .abcd 0) := by decide

/-- The word that `withFetchWord` presents runs as the first instruction after reset. -/
theorem test_fetch_word_runs_first :
    step (State.reset.withFetchWord 40 0x2000000001) = exec (.crcUpd8 0x01#8) State.reset := by rfl

/-! ### The commands, one step each (95_test_vectors.md sections 2.3, 2.4 and 4) -/

theorem test_init_step : stepWord 0x1234#16 0x1000000000#40 = some (0xFFFF#16, some 0#34) := by decide +kernel

theorem test_upd8_step : stepWord 0x807E#16 0x2000000003#40 = some (0x2140#16, some 0#34) := by decide +kernel

theorem test_upd8_step_residue : stepWord 0x002B#16 0x200000002B#40 = some (0x0000#16, some 0#34) := by decide +kernel

theorem test_read_step : stepWord 0x0A84#16 0x3000000000#40 = some (0x0A84#16, some 0x000000A84#34) := by decide +kernel

theorem test_check_step_equal :
    stepWord 0x322A#16 0x400000322A#40 = some (0x322A#16, some 0x00000322A#34) := by decide +kernel

theorem test_check_step_differs :
    stepWord 0xF2EB#16 0x400000322A#40 = some (0xF2EB#16, some 0x10000F2EB#34) := by decide +kernel

theorem test_pack_step :
    stepWord 0xFFFF#16 0x8478563412#40 = some (0xFFFF#16, some 0x012345678#34) := by decide +kernel

theorem test_pack_step_cdab :
    stepWord 0xFFFF#16 0x8C56781234#40 = some (0xFFFF#16, some 0x012345678#34) := by decide +kernel

theorem test_unpack_step :
    stepWord 0xFFFF#16 0x9C41200000#40 = some (0xFFFF#16, some 0x000004120#34) := by decide +kernel

theorem test_unpack_step_dcba :
    stepWord 0xFFFF#16 0x9412345678#40 = some (0xFFFF#16, some 0x078563412#34) := by decide +kernel

theorem test_illegal_step :
    stepWord 0xD101#16 0x0000000000#40 = some (0xD101#16, some 0x200000000#34) := by decide +kernel

/-- 70_reset_and_hazards.md R120: the command beside a reset gets no response. -/
theorem test_reset_step :
    shown (step ((holding 0x1234#16).present (.reset (some 0x3000000000#40)))) = some (0xFFFF#16, none) := by
  decide +kernel

/-! ### The CRC function (95_test_vectors.md sections 1.2, 2.1, 2.2, 2.3 and 2.7) -/

theorem test_crc_bit :
    crcBit 0x0000#16 true = 0xA001#16 ∧ crcBit 0x0001#16 true = 0x0000#16 ∧ crcBit 0x8000#16 true = 0xE001#16 ∧
    crcBit 0x4000#16 true = 0x8001#16 ∧ crcBit 0xFFFF#16 false = 0xDFFE#16 := by decide

theorem test_crc_byte :
    crcByte 0xFFFF#16 0x00#8 = 0x40BF#16 ∧ crcByte 0x0000#16 0x80#8 = 0xA001#16 ∧ crcByte 0x0A84#16 0x84#8 = 0x000A#16 ∧
    crcByte 0x0A00#16 0x0A#8 = 0x078A#16 ∧ crcByte 0x1234#16 0x56#8 = 0xE993#16 := by decide +kernel

theorem test_crc_check_value :
    crc16Modbus [0x31#8, 0x32#8, 0x33#8, 0x34#8, 0x35#8, 0x36#8, 0x37#8, 0x38#8, 0x39#8] = 0x4B37#16 := by
  decide +kernel

theorem test_crc_of_frames :
    crc16Modbus [0x01#8, 0x03#8, 0x00#8, 0x64#8, 0x00#8, 0x02#8] = 0xD485#16 ∧
    crc16Modbus [0x01#8, 0x83#8, 0x02#8] = 0xF1C0#16 ∧
    crc16Modbus [0x0B#8, 0x04#8, 0x03#8, 0xE8#8, 0x00#8, 0x02#8] = 0x11F1#16 ∧
    crc16Modbus [0x01#8, 0x0F#8, 0x00#8, 0x00#8, 0x00#8, 0x08#8, 0x01#8, 0xA5#8] = 0xEE3E#16 := by decide +kernel

/-- The residues of the 64 single-bit-flipped copies of the reference frame, as section 1.2 prints them. -/
theorem test_residues_of_flipped_frames :
    ((List.range 8).flatMap fun k => (List.range 8).map fun j =>
      crc16Modbus (requestFrame.modify k (· ^^^ (1#8 <<< j)))) =
    [0xCCC1#16, 0xD981#16, 0xF301#16, 0xA601#16, 0x0C01#16, 0x1802#16, 0x3004#16, 0x6008#16] ++
    [0xC010#16, 0xC023#16, 0xC045#16, 0xC089#16, 0xC111#16, 0xC221#16, 0xC441#16, 0xC881#16] ++
    [0xD101#16, 0xE201#16, 0x8401#16, 0x4801#16, 0x9002#16, 0x6007#16, 0xC00E#16, 0xC01F#16] ++
    [0xC03D#16, 0xC079#16, 0xC0F1#16, 0xC1E1#16, 0xC3C1#16, 0xC781#16, 0xCF01#16, 0xDE01#16] ++
    [0xFC01#16, 0xB801#16, 0x3001#16, 0x6002#16, 0xC004#16, 0xC00B#16, 0xC015#16, 0xC029#16] ++
    [0xC051#16, 0xC0A1#16, 0xC141#16, 0xC281#16, 0xC501#16, 0xCA01#16, 0xD401#16, 0xE801#16] ++
    [0x9001#16, 0x6001#16, 0xC002#16, 0xC007#16, 0xC00D#16, 0xC019#16, 0xC031#16, 0xC061#16] ++
    [0xC0C1#16, 0xC181#16, 0xC301#16, 0xC601#16, 0xCC01#16, 0xD801#16, 0xF001#16, 0xA001#16] := by decide +kernel

/-- A left-shifting register (one of the wrong algorithms of 40_crc.md R64). -/
def leftCrc (poly : Half) (c : Half) (m : List Byte) : Half :=
  m.foldl (fun c b => Nat.repeat (fun c => if c.getLsbD 15 then (c <<< 1) ^^^ poly else c <<< 1) 8
    (c ^^^ (b ++ 0#8 : Half))) c

/-- The algorithm of 40_crc.md R51 with each byte's most significant bit first (wrong: R64). -/
def msbFirstByte (c : Half) (b : Byte) : Half :=
  [7, 6, 5, 4, 3, 2, 1, 0].foldl (fun c i => crcBit c (b.getLsbD i)) c

/-- 40_crc.md R64: each wrong algorithm gives the wrong value the rule prints, and the model gives another. -/
theorem test_wrong_algorithms :
    leftCrc 0x8005#16 0xFFFF#16 request = 0x7856#16 ∧ leftCrc 0xA001#16 0xFFFF#16 request = 0xAF59#16 ∧
    crcBytes 0x0000#16 request = 0x1184#16 ∧ crc16Modbus request ^^^ 0xFFFF#16 = 0xF57B#16 ∧
    request.foldl msbFirstByte 0xFFFF#16 = 0x6A1E#16 ∧ crc16Modbus request = 0x0A84#16 := by decide +kernel

/-! ### The permutation and the host sequences (95_test_vectors.md sections 1.2, 1.4, 3.1, 3.3 and 4) -/

theorem test_perm :
    perm .abcd 0xDEADBEEF#32 = 0xDEADBEEF#32 ∧ perm .dcba 0xDEADBEEF#32 = 0xEFBEADDE#32 ∧
    perm .badc 0xDEADBEEF#32 = 0xADDEEFBE#32 ∧ perm .cdab 0xDEADBEEF#32 = 0xBEEFDEAD#32 := by decide

theorem test_halfs_and_bytes :
    shortsToBytes .le [0x1234#16, 0xABCD#16] = [0x34#8, 0x12#8, 0xCD#8, 0xAB#8] ∧
    bytesToShorts .be [0x12#8, 0x34#8, 0xAB#8, 0xCD#8] = some [0x1234#16, 0xABCD#16] := by decide

theorem test_frame_gen : result (frameGen request (holding 0x1234#16)) = some requestFrame := by decide +kernel

theorem test_frame_verify :
    result (frameVerify Config.minFrameLen responseFrame State.reset) = some .valid ∧
    result (frameVerify Config.minFrameLen (responseFrame.modify 6 (· ^^^ 1#8)) State.reset) = some .crcMismatch ∧
    result (frameVerify Config.minFrameLen [0x01#8, 0x03#8, 0x04#8] State.reset) = some .tooShort := by decide +kernel

theorem test_frame_verify_residue :
    result (frameVerifyResidue Config.minFrameLen responseFrame State.reset) = some .valid ∧
    result (frameVerifyResidue Config.minFrameLen (responseFrame.modify 6 (· ^^^ 1#8)) State.reset) = some .crcMismatch := by
  decide +kernel

theorem test_word_sequences :
    result (swpW2i .badc 0x3412#16 0x7856#16 State.reset) = some 0x12345678#32 ∧
    result (swpI2w .badc 0x00000001#32 State.reset) = some (0x0000#16, 0x0100#16) ∧
    result (swpH16 .le 0x00FF#16 State.reset) = some 0xFF00#16 := by decide +kernel

/-- P2 and P3: the value of a valid response in two modes, and no value from a corrupted one. -/
theorem test_read_value :
    result (readValue Config.minFrameLen .abcd 3 responseFrame State.reset) = some (.value 0x00010002#32) ∧
    result (readValue Config.minFrameLen .cdab 3 responseFrame State.reset) = some (.value 0x00020001#32) ∧
    result (readValue Config.minFrameLen .abcd 3 (responseFrame.modify 6 (· ^^^ 1#8)) State.reset) =
      some (.failed .crcMismatch) ∧
    result (readValue Config.minFrameLen .abcd 4 responseFrame State.reset) = some .notInFrame := by decide +kernel

/-- The illegal words of P5 after a legal one: the run counts as faulted (60_exceptions.md R102). -/
theorem test_run_faulted :
    runFaulted 2 { State.reset with inputs := [.command 0x3000000000#40, .command 0x8100000000#40] } = true ∧
    runFaulted 2 { State.reset with inputs := [.command 0x3000000000#40, .command 0x1000000000#40] } = false := by
  decide +kernel

/-! ### The textual syntax (30_encoding.md R44; the lines of 95_test_vectors.md section 4) -/

theorem test_assemble_upd8 :
    assemble ['c', 'r', 'c', '.', 'u', 'p', 'd', '8', ' ', '0', 'x', 'F', 'F'] = some (.crcUpd8 0xFF#8) := by
  decide +kernel

theorem test_assemble_pack :
    assemble ['S', 'w', 'p', '.', 'p', 'a', 'c', 'k', ' ', 'D', 'C', 'B', 'A', ',', ' ', '0', 'x', '7', '8', '5', '6', '3',
      '4', '1', '2', ' ', ';', 'x'] = some (.swpPack .dcba 0x78563412#32) := by decide +kernel

theorem test_assemble_refuses_wide_operand :
    assemble ['c', 'r', 'c', '.', 'u', 'p', 'd', '8', ' ', '0', 'x', '1', '0', '0'] = none := by decide +kernel

/-! ### Witnesses: for each statement with hypotheses, what meets them -/

theorem test_witness_mustBeZeroBitsRefused :
    (CmdFields.mk 8 0 1 0).rsv ≠ 0 ∧ ((CmdFields.mk 4 3 0 0).op = 4 ∧ (CmdFields.mk 4 3 0 0).mode ≠ 0) ∧
    ((CmdFields.mk 3 0 0 0x80000000#32).op = 3 ∧ (CmdFields.mk 3 0 0 0x80000000#32).data ≠ 0) ∧
    ((CmdFields.mk 2 0 0 0x100#32).op = 2 ∧ (CmdFields.mk 2 0 0 0x100#32).data.extractLsb' 8 24 ≠ 0) ∧
    ((CmdFields.mk 4 0 0 0x10000#32).op = 4 ∧ (CmdFields.mk 4 0 0 0x10000#32).data.extractLsb' 16 16 ≠ 0) ∧
    decode 0x400000FFFF#40 = .command (.crcCheck 0xFFFF#16) := by decide

theorem test_witness_rowsSpellTheirCommands :
    ∃ r ∈ opcodeRows, r.spells 0x9C41200000#40 = true := by decide

theorem test_witness_illegalExactlyWhenNoRowMatches :
    (CmdFields.mk 0xF 0 0 0).op ∈ [0x0#4, 0x5#4, 0x6#4, 0x7#4, 0xA#4, 0xB#4, 0xC#4, 0xD#4, 0xE#4, 0xF#4] ∧
    ((CmdFields.mk 9 0 2 0).op ∈ [1#4, 2#4, 3#4, 4#4, 8#4, 9#4] ∧ (CmdFields.mk 9 0 2 0).rsv ≠ 0) ∧
    ((CmdFields.mk 1 1 0 0).op ∈ [1#4, 2#4, 3#4, 4#4] ∧ (CmdFields.mk 1 1 0 0).mode ≠ 0) ∧
    ((CmdFields.mk 3 0 0 1).op ∈ [1#4, 3#4] ∧ (CmdFields.mk 3 0 0 1).data ≠ 0) ∧
    ((CmdFields.mk 2 0 0 0x100#32).op = 2 ∧ (CmdFields.mk 2 0 0 0x100#32).data.extractLsb' 8 24 ≠ 0) ∧
    ((CmdFields.mk 4 0 0 0x10000#32).op = 4 ∧ (CmdFields.mk 4 0 0 0x10000#32).data.extractLsb' 16 16 ≠ 0) := by decide

theorem test_witness_commandWordFields :
    (CmdFields.mk 1 0 3 0).rsv ≠ 0 ∧ (CmdFields.mk 1 2 0 0).op = 1 ∧ (CmdFields.mk 1 2 0 0).mode ≠ 0 := by decide

theorem test_witness_oneResponsePerCommandWord :
    decode 0x1000000000#40 = .command .crcInit ∧ decode 0x20000000FF#40 = .command (.crcUpd8 0xFF#8) ∧
    (decode 0x5000000000#40).instr? = none := by decide

theorem test_witness_stepRunsTheDecodedCommand :
    ((holding 0x1234#16).present (.command 0x3000000000#40)).inputs = .command 0x3000000000#40 :: [] ∧
    decode 0x3000000000#40 = .command .crcRead := by decide

theorem test_witness_illegalWordAnswered :
    (((holding 0xD101#16).present (.command (encode (.crcUpd8 0)))).present (.command 0x0000000000#40)).inputs =
      .command 0x0000000000#40 :: .command (encode (.crcUpd8 0)) :: [] ∧ (decode 0x0000000000#40).instr? = none := by
  decide

theorem test_witness_stepKeepsPortLegal :
    step ((holding 0xF2EB#16).present (.command 0x400000322A#40)) =
      .next { block := { crc := 0xF2EB#16 }, inputs := [], response := some 0x10000F2EB#34 } ∧
    rspStatus 0x10000F2EB#34 = Status.crcMismatch.code ∧ rspStatus 0x200000000#34 = Status.illegalCmd.code ∧
    step ((holding 0xF2EB#16).present (.command 0#40)) =
      .next { block := { crc := 0xF2EB#16 }, inputs := [], response := some 0x200000000#34 } :=
  ⟨rfl, rfl, rfl, rfl⟩

theorem test_witness_registerHoldsBytesSinceInit :
    State.reset.block.crc = crc16Modbus [] ∧ (holding 0x0A84#16).block.crc = crc16Modbus request := by decide +kernel

theorem test_witness_onlyInitUpd8AndResetWriteCrc :
    (step ((holding 0x1234#16).present (.reset none)) = .next (holding 0xFFFF#16)) ∧
    stepWord 0x1234#16 0x1000000000#40 = some (0xFFFF#16, some 0#34) ∧
    stepWord 0xFFFF#16 0x2000000001#40 = some (0x807E#16, some 0#34) ∧
    (holding 0xFFFF#16).block.crc ≠ (holding 0x1234#16).block.crc :=
  ⟨rfl, by decide +kernel, by decide +kernel, by decide⟩

theorem test_witness_commandFrames_and_swapUnit :
    (∃ i : Instr, i = .crcRead) ∧ (∃ (i : Instr) (rx : Half), i = .crcCheck rx) ∧
    (∃ (i : Instr) (m : Mode) (x : Dword), i = .swpPack m x) ∧ (∃ (i : Instr) (m : Mode) (x : Dword), i = .swpUnpack m x) :=
  ⟨⟨_, rfl⟩, ⟨_, 0, rfl⟩, ⟨_, .abcd, 0, rfl⟩, ⟨_, .abcd, 0, rfl⟩⟩

/-- Two states that differ, and hold the same register and the same inputs. -/
theorem test_witness_responsesDependOnCrcAndInputs :
    let s := holding 0x0A84#16
    let s' : State := { s with response := some 0x200000000#34 }
    s ≠ s' ∧ s.block = s'.block ∧ s.inputs = s'.inputs := by decide

theorem test_witness_allButUpd8AreIdempotent : ∀ b : Byte, Instr.crcInit ≠ .crcUpd8 b := by
  intro b h; cases h

theorem test_witness_programOrder :
    ((holding 0#16).present (.command 0xFFFFFFFFFF#40)).inputs = .command 0xFFFFFFFFFF#40 :: [] ∧
    ∀ c ∈ [Instr.crcUpd8 0x01#8, .swpPack .dcba 0x12345678#32, .crcRead, .crcUpd8 0x03#8], c ≠ .crcInit := by decide

/-- Bits 1 and 12, the ends of the range, of the words of the first step of the trace of 40_crc.md R51. -/
theorem test_witness_crcBitByBit :
    (1 ≤ 1 ∧ 1 ≤ 12) ∧ (1 ≤ 12 ∧ 12 ≤ 12) ∧ crcBit 0x7FFF#16 false = 0x9FFE#16 ∧
    (0x9FFE#16 : Half).getLsbD 1 = (0x7FFF#16 : Half).getLsbD 2 ∧
    (0x9FFE#16 : Half).getLsbD 12 = (0x7FFF#16 : Half).getLsbD 13 := by decide

theorem test_witness_crcIsLinear : request.length = [0#8, 0#8, 0x10#8, 0#8, 0#8, 0#8].length := by decide

/-- The reference frame with its first and its last bit flipped, and the shortest frame with a correct trailer. -/
theorem test_witness_singleBitErrorsDetected :
    (2 ≤ requestFrame.length ∧ 0 < requestFrame.length ∧ 7 < requestFrame.length ∧ (0 : Nat) < 8 ∧ (7 : Nat) < 8 ∧
      crcBytes 0xFFFF#16 (coveredBytes requestFrame) = frameTrailer requestFrame ∧
      Config.minFrameLen.len ≤ requestFrame.length) ∧
    (2 ≤ [0xFF#8, 0xFF#8].length ∧ 1 < [0xFF#8, 0xFF#8].length ∧
      crcBytes 0xFFFF#16 (coveredBytes [0xFF#8, 0xFF#8]) = frameTrailer [0xFF#8, 0xFF#8] ∧
      shortestLen.len ≤ [0xFF#8, 0xFF#8].length) := by decide +kernel

theorem test_witness_crcInitEffect_and_crcReadEffect : State.reset.block.crc = 0xFFFF#16 := by decide

theorem test_witness_crcCheckEffect : (holding 0x0A84#16).block.crc = 0x0A84#16 := by decide

theorem test_witness_mismatchOnlyFromCheck :
    (holding 0xF2EB#16).block.crc ≠ 0x322A#16 ∧ encode (.crcCheck 0x322A#16) = 0x400000322A#40 ∧
    step ((holding 0xF2EB#16).present (.command 0x400000322A#40)) =
      .next { block := { crc := 0xF2EB#16 }, inputs := [], response := some 0x10000F2EB#34 } :=
  ⟨by decide, by decide, rfl⟩

theorem test_witness_statusPriority :
    stepWord 0xFFFF#16 0xFFFFFFFFFF#40 = some (0xFFFF#16, some 0x200000000#34) ∧
    shown (exec (.crcCheck 0x840A#16) (holding 0x0A84#16)) = some (0x0A84#16, some 0x100000A84#34) ∧
    ([] : List Byte).length < Config.minFrameLen.len ∧ [0x01#8, 0x7E#8, 0x80#8].length < Config.minFrameLen.len := by
  decide +kernel

theorem test_witness_permIsLaneXor : (0 : Nat) < 4 ∧ (3 : Nat) < 4 ∧ lane 0x12345678#32 0 = 0x12#8 ∧ lane 0x12345678#32 3 = 0x78#8 := by
  decide

theorem test_witness_permAlgebra_and_wrongMode :
    laneXor .cdab = laneXor .dcba ^^^ laneXor .badc ∧ laneXor .abcd = laneXor .cdab ^^^ laneXor .cdab := by decide

theorem test_witness_frameVerify_and_residueVerify :
    [0x01#8, 0x7E#8, 0x80#8].length < Config.minFrameLen.len ∧ Config.minFrameLen.len ≤ [0x01#8, 0x03#8, 0x40#8, 0x21#8].length ∧
    shortestLen.len ≤ [0xFF#8, 0xFF#8].length := by decide

theorem test_witness_generatedFrames_and_swappedTrailer :
    Config.minFrameLen.len ≤ [0x01#8, 0x03#8].length + 2 ∧ shortestLen.len ≤ ([] : List Byte).length + 2 := by
  decide

/-- The last place that holds four covered bytes of a valid frame, and two frames that are not valid. -/
theorem test_witness_readValueOnlyFromValidFrames :
    (result (frameVerify Config.minFrameLen responseFrame State.reset) = some .valid ∧ 3 + 4 ≤ responseFrame.length - 2) ∧
    result (frameVerify Config.minFrameLen (responseFrame.modify 8 (· ^^^ 0x80#8)) State.reset) = some .crcMismatch ∧
    result (frameVerify Config.minFrameLen [0x01#8] State.reset) = some .tooShort := by decide +kernel

end Sys2Proof.Tests
end

section
/-! The word of a command decodes back to it, and what executing a command makes of the register and of the response port
(spec/30_encoding.md R46; 10_state.md R16, R18). -/

namespace Sys2Proof.Machine

theorem extractLsb'_setWidth_high {n : Nat} (x : BitVec n) : (x.setWidth 32).extractLsb' n (32 - n) = 0 := by
  refine BitVec.eq_of_getLsbD_eq fun k _ => ?_
  simp

theorem extractLsb'_setWidth_low {n : Nat} (h : n ≤ 32) (x : BitVec n) : (x.setWidth 32).extractLsb' 0 n = x := by
  refine BitVec.eq_of_getLsbD_eq fun k hk => ?_
  simp [hk, show k < 32 by omega]

/-- The word of a command decodes to that command: an operand fills its field and leaves the bits above it zero
(30_encoding.md R40, R46). -/
@[simp] theorem decode_encode (i : Instr) : decode (encode i) = .command i := by
  rw [decode, encode, CmdFields.ofWord_toWord]
  cases i with
  | crcInit | crcRead => decide
  | crcUpd8 operand | crcCheck operand =>
    have hhigh := extractLsb'_setWidth_high operand
    have hlow := extractLsb'_setWidth_low (by decide) operand
    simp [encodeFields, decodeFields, decodeCrc, hhigh, hlow]
  | swpPack mode x | swpUnpack mode x => simp [encodeFields, decodeFields]

theorem step_present_encode (s : State) (i : Instr) : step (s.present (.command (encode i))) = exec i s := by
  rw [step_present_command, runWord_command (decode_encode i)]

/-- The value of `CRC` after a command, from its value before (10_state.md R10; 40_crc.md R53, R54). -/
def crcAfter (c : Half) : Instr → Half
  | .crcInit => Config.crcInit
  | .crcUpd8 byte => crcByte c byte
  | .crcRead | .crcCheck _ | .swpPack _ _ | .swpUnpack _ _ => c

/-- The response to a command, from the value of `CRC` before it (40_crc.md R53 to R56; 41_swap.md R75, R76). -/
def responseTo (c : Half) : Instr → RspWord
  | .crcInit | .crcUpd8 _ => rsp .ok 0
  | .crcRead => rsp .ok (c.setWidth 32)
  | .crcCheck rx => rsp (checkStatus c rx) (c.setWidth 32)
  | .swpPack mode x | .swpUnpack mode x => rsp .ok (perm mode x)

/-- The state after a command. The response the port showed before is no part of it (10_state.md R18). -/
def stateAfter (i : Instr) (s : State) : State where
  block := { crc := crcAfter s.block.crc i }
  inputs := s.inputs
  response := some (responseTo s.block.crc i)

/-- Everything a command does. -/
theorem exec_eq (i : Instr) (s : State) : exec i s = .next (stateAfter i s) := by
  cases i <;> rfl

theorem issue_eq_next (i : Instr) (s : State) : issue i s = .next (responseTo s.block.crc i, stateAfter i s) := by
  rw [issue_eq (decode_encode i), exec_eq]; rfl

@[simp] theorem issueAll_nil (s : State) : issueAll [] s = .next s := rfl

@[simp] theorem issueAll_cons (i : Instr) (rest : List Instr) (s : State) :
    issueAll (i :: rest) s = issueAll rest (stateAfter i s) := by
  rw [issueAll, issue_eq_next, andThen_next]

theorem stateAfter_congr {s s' : State} (hb : s.block = s'.block) (hi : s.inputs = s'.inputs) (i : Instr) :
    stateAfter i s = stateAfter i s' := by
  rw [stateAfter, stateAfter, hb, hi]

/-- A command that keeps `CRC` can be left out before any other command: the next response takes the place of its own. -/
theorem issueAll_cons_of_crcAfter_eq {i : Instr} {s : State} (hkeep : crcAfter s.block.crc i = s.block.crc)
    (j : Instr) (rest : List Instr) : issueAll (i :: j :: rest) s = issueAll (j :: rest) s := by
  have hblock : (stateAfter i s).block = s.block := congrArg Block.mk hkeep
  rw [issueAll_cons, issueAll_cons, issueAll_cons, stateAfter_congr hblock rfl]

/-- A command word, legal or not, is answered by the register before it and by nothing else. -/
theorem runWord_of_block (w : CmdWord) (b : Block) :
    ∃ (b' : Block) (r : RspWord), ∀ s : State, s.block = b →
      runWord w s = .next { block := b', inputs := s.inputs, response := some r } := by
  cases h : decode w with
  | command i =>
    refine ⟨{ crc := crcAfter b.crc i }, responseTo b.crc i, ?_⟩
    rintro s rfl
    rw [runWord_command h, exec_eq]; rfl
  | illegal why =>
    refine ⟨b, rsp .illegalCmd 0, ?_⟩
    rintro s rfl
    rw [runWord_illegal h]; rfl

/-- A step overwrites the response port without reading it. -/
theorem step_congr {s s' : State} (hb : s.block = s'.block) (hi : s.inputs = s'.inputs) : step s = step s' := by
  obtain ⟨b, inputs, response⟩ := s
  obtain ⟨block', inputs', response'⟩ := s'
  obtain rfl : b = block' := hb
  obtain rfl : inputs = inputs' := hi
  match inputs with
  | [] | .reset _ :: _ => rfl
  | .command w :: rest =>
    obtain ⟨_, _, hrun⟩ := runWord_of_block w b
    exact (hrun ⟨b, rest, response⟩ rfl).trans (hrun ⟨b, rest, response'⟩ rfl).symm

end Sys2Proof.Machine
end

section
/-! The statements about the state (spec/10_state.md R17 to R19). -/

namespace Sys2Proof.Machine

/-- Settles O21: the port is overwritten by every step and read by none, so equal registers and inputs step to one state. -/
theorem responsesDependOnCrcAndInputs : Obligations.ResponsesDependOnCrcAndInputs := by
  refine ⟨fun s s' w hb => ?_, fun n s s' hb hi => ?_⟩
  · obtain ⟨_, _, hrun⟩ := runWord_of_block w s.block
    exact ⟨_, _, hrun s rfl, hrun s' hb.symm, rfl, rfl⟩
  · cases n with
    | zero => rfl
    | succ n => rw [responses, responses, step_congr hb hi]

/-- Settles O10: the fields of the reset state, and `step_present_encode` at it. -/
theorem resetStateAndFirstResponse : Obligations.ResetStateAndFirstResponse :=
  ⟨rfl, rfl, step_present_encode State.reset⟩

/-- Settles O22: a swap keeps `CRC`, so it can be left out before the second `CRC.UPD8`. -/
theorem swapUnitIsCombinational : Obligations.SwapUnitIsCombinational := by
  have insert_between {i : Instr} (hkeep : ∀ c, crcAfter c i = c) (a b : Byte) (s : State) :
      issueAll [.crcUpd8 a, i, .crcUpd8 b] s = issueAll [.crcUpd8 a, .crcUpd8 b] s := by
    rw [issueAll_cons, issueAll_cons_of_crcAfter_eq (hkeep _), ← issueAll_cons]
  rintro i (⟨m, x, rfl⟩ | ⟨m, x, rfl⟩)
  · exact ⟨⟨rsp .ok (perm m x), exec_eq _⟩, insert_between fun _ => rfl⟩
  · exact ⟨⟨rsp .ok (perm m x), exec_eq _⟩, insert_between fun _ => rfl⟩

end Sys2Proof.Machine
end

section
/-! Sequences of commands and the order of their effects (spec/20_memory.md R30). -/

namespace Sys2Proof.Machine

theorem issueAll_append (xs ys : List Instr) (s : State) :
    issueAll (xs ++ ys) s = andThen (issueAll xs s) (issueAll ys) := by
  induction xs generalizing s with
  | nil => rfl
  | cons x xs ih => rw [List.cons_append, issueAll_cons, issueAll_cons, ih]

/-- A presented command word, legal or not, is answered by the step that accepts it. -/
theorem step_answers_command {s : State} {w : CmdWord} {rest : List HostInput} (h : s.inputs = .command w :: rest) :
    ∃ (b : Block) (r : RspWord), step s = .next { block := b, inputs := rest, response := some r } := by
  obtain ⟨block, inputs, response⟩ := s
  obtain rfl : inputs = .command w :: rest := h
  obtain ⟨b, r, hrun⟩ := runWord_of_block w block
  exact ⟨b, r, hrun ⟨block, rest, response⟩ rfl⟩

/-- A sequence of commands always answers, and folds `crcAfter` over the register. -/
theorem issueAll_crc (cmds : List Instr) (s : State) :
    ∃ t : State, issueAll cmds s = .next t ∧ t.block.crc = cmds.foldl crcAfter s.block.crc := by
  induction cmds generalizing s with
  | nil => exact ⟨s, rfl, rfl⟩
  | cons i rest ih => rw [issueAll_cons]; exact ih (stateAfter i s)

/-- Between two `CRC.INIT` only the absorbed bytes reach the register (20_memory.md R30 (b)). -/
theorem foldl_crcAfter_eq_crcBytes {cmds : List Instr} (hinit : ∀ i ∈ cmds, i ≠ .crcInit) (c : Half) :
    cmds.foldl crcAfter c = crcBytes c (absorbedBytes cmds) := by
  induction cmds generalizing c with
  | nil => rfl
  | cons i rest ih =>
    obtain ⟨hi, hrest⟩ := List.forall_mem_cons.mp hinit
    cases i with
    | crcInit => exact absurd rfl hi
    | crcUpd8 byte => exact ih hrest (crcByte c byte)
    | crcRead | crcCheck _ | swpPack _ _ | swpUnpack _ _ => exact ih hrest c

/-- Settles O24: `issueAll_append`, `step_answers_command`, and the fold of a sequence from the register `CRC.INIT` leaves. -/
theorem programOrder : Obligations.ProgramOrder := by
  refine ⟨issueAll_append, fun s w rest h => ?_, fun cmds s hinit => ?_⟩
  · obtain ⟨b, r, hstep⟩ := step_answers_command h
    exact ⟨_, hstep, rfl, rfl⟩
  · obtain ⟨t, hrun, hcrc⟩ := issueAll_crc (.crcInit :: cmds) s
    exact ⟨t, hrun, hcrc.trans (foldl_crcAfter_eq_crcBytes hinit Config.crcInit)⟩

end Sys2Proof.Machine
end

section
/-! The fields of a command word and the commands they spell: each command has one encoding, and it breaks no must-be-zero rule
(spec/30_encoding.md R35, R40, R46). -/

namespace Sys2Proof

@[simp] theorem CmdFields.toWord_ofWord (w : CmdWord) : (CmdFields.ofWord w).toWord = w := by
  simp only [CmdFields.ofWord, CmdFields.toWord]
  rw [BitVec.extractLsb'_append_extractLsb'_eq_extractLsb' (by decide),
    BitVec.extractLsb'_append_extractLsb'_eq_extractLsb' (by decide),
    BitVec.extractLsb'_append_extractLsb'_eq_extractLsb' (by decide)]
  exact BitVec.extractLsb'_eq_self

/-- The fields as summands of the word: R46 writes its encodings this way. -/
theorem CmdFields.toWord_eq_or (f : CmdFields) : f.toWord =
    f.op.setWidth 40 <<< 36 ||| f.mode.setWidth 40 <<< 34 ||| f.rsv.setWidth 40 <<< 32 ||| f.data.setWidth 40 :=
  (BitVec.setWidth_eq f.toWord).symm.trans BitVec.setWidth_append_append_append_eq_shiftLeft_setWidth_or

theorem toNat_append_eq_add {m n : Nat} (x : BitVec m) (y : BitVec n) :
    (x ++ y).toNat = x.toNat * 2 ^ n + y.toNat := by
  rw [BitVec.toNat_append, ← Nat.shiftLeft_add_eq_or_of_lt y.isLt, Nat.shiftLeft_eq]

theorem CmdFields.toNat_toWord (f : CmdFields) :
    f.toWord.toNat = f.op.toNat * 16 ^ 9 + (f.mode ++ f.rsv).toNat * 16 ^ 8 + f.data.toNat := by
  simp only [CmdFields.toWord, toNat_append_eq_add]
  ring

@[simp] theorem decode_toWord (f : CmdFields) : decode f.toWord = decodeFields f := by
  rw [decode, CmdFields.ofWord_toWord]

theorem decodeCrc_eq_command_iff {mode : BitVec 2} {dataZero : Bool} {i j : Instr} :
    decodeCrc mode dataZero i = .command j ↔ mode = 0 ∧ dataZero = true ∧ i = j := by
  rw [decodeCrc]; split_ifs <;> simp_all

@[simp] theorem instr?_command (i : Instr) : (Decoded.command i).instr? = some i := rfl

@[simp] theorem instr?_illegal (why : Illegal) : (Decoded.illegal why).instr? = none := rfl

theorem instr?_decodeCrc (mode : BitVec 2) (dataZero : Bool) (i : Instr) :
    (decodeCrc mode dataZero i).instr? = if mode = 0 ∧ dataZero = true then some i else none := by
  rw [decodeCrc]; split_ifs <;> simp_all

theorem instr?_eq_none_iff {d : Decoded} : d.instr? = none ↔ ∀ i, d ≠ .command i := by
  cases d <;> simp

/-- An operand whose upper bits are zero fills the data field again. -/
theorem setWidth_extractLsb'_of_high_zero {n : Nat} {x : Dword} (h : x.extractLsb' n (32 - n) = 0) :
    (x.extractLsb' 0 n).setWidth 32 = x := by
  refine BitVec.eq_of_getLsbD_eq fun k hk => ?_
  have hbit := congrArg (·.getLsbD (k - n)) h
  by_cases hkn : k < n
  · simp [hk, hkn]
  · simpa [hk, hkn, show k - n < 32 - n by omega, show n + (k - n) = k by omega] using hbit.symm

/-- Decoding loses no bit of the fields: those it does not pass on are fixed by the checks (R40). -/
theorem encodeFields_of_decodeFields {f : CmdFields} {i : Instr} (h : decodeFields f = .command i) : encodeFields i = f := by
  obtain ⟨op, mode, rsv, data⟩ := f
  simp only [decodeFields] at h
  split_ifs at h with hrsv hop hop hop hop hop hop <;> subst hop <;> obtain rfl : rsv = 0 := not_not.mp hrsv
  · obtain ⟨rfl, hdata, rfl⟩ := decodeCrc_eq_command_iff.mp h
    rw [encodeFields, eq_of_beq hdata]
  · obtain ⟨rfl, hdata, rfl⟩ := decodeCrc_eq_command_iff.mp h
    rw [encodeFields, setWidth_extractLsb'_of_high_zero (eq_of_beq hdata)]
  · obtain ⟨rfl, hdata, rfl⟩ := decodeCrc_eq_command_iff.mp h
    rw [encodeFields, eq_of_beq hdata]
  · obtain ⟨rfl, hdata, rfl⟩ := decodeCrc_eq_command_iff.mp h
    rw [encodeFields, setWidth_extractLsb'_of_high_zero (eq_of_beq hdata)]
  · obtain rfl := Decoded.command.inj h
    rw [encodeFields, Mode.code_ofCode]
  · obtain rfl := Decoded.command.inj h
    rw [encodeFields, Mode.code_ofCode]

/-- A word spells a command exactly when it is the command's one encoding (R40). -/
theorem decode_eq_command_iff {w : CmdWord} {i : Instr} : decode w = .command i ↔ w = encode i := by
  constructor
  · intro h
    rw [encode, encodeFields_of_decodeFields h, CmdFields.toWord_ofWord]
  · rintro rfl
    exact Machine.decode_encode i

theorem encode_injective : Function.Injective encode := fun i _ h =>
  Decoded.command.inj ((Machine.decode_encode i).symm.trans (decode_eq_command_iff.mpr h))

/-! The must-be-zero rules of R40, met by the fields of every command. -/

theorem encodeFields_op (i : Instr) : (encodeFields i).op ∈ [1#4, 2#4, 3#4, 4#4, 8#4, 9#4] := by
  cases i <;> simp [encodeFields]

theorem encodeFields_rsv (i : Instr) : (encodeFields i).rsv = 0 := by
  cases i <;> rfl

theorem encodeFields_mode {i : Instr} (hop : (encodeFields i).op ∈ [1#4, 2#4, 3#4, 4#4]) : (encodeFields i).mode = 0 := by
  cases i with
  | crcInit | crcUpd8 _ | crcRead | crcCheck _ => rfl
  | swpPack _ _ | swpUnpack _ _ => simp [encodeFields] at hop

theorem encodeFields_data_of_no_operand {i : Instr} (hop : (encodeFields i).op ∈ [1#4, 3#4]) : (encodeFields i).data = 0 := by
  cases i with
  | crcInit | crcRead => rfl
  | crcUpd8 _ | crcCheck _ | swpPack _ _ | swpUnpack _ _ => simp [encodeFields] at hop

theorem encodeFields_data_of_upd8 {i : Instr} (hop : (encodeFields i).op = 2) :
    (encodeFields i).data.extractLsb' 8 24 = 0 := by
  cases i with
  | crcUpd8 byte => exact Machine.extractLsb'_setWidth_high byte
  | crcInit | crcRead | crcCheck _ | swpPack _ _ | swpUnpack _ _ => simp [encodeFields] at hop

theorem encodeFields_data_of_check {i : Instr} (hop : (encodeFields i).op = 4) :
    (encodeFields i).data.extractLsb' 16 16 = 0 := by
  cases i with
  | crcCheck rx => exact Machine.extractLsb'_setWidth_high rx
  | crcInit | crcUpd8 _ | crcRead | swpPack _ _ | swpUnpack _ _ => simp [encodeFields] at hop

end Sys2Proof
end

section
/-! Illegal words: no command has their fields (spec/30_encoding.md R40, R41; 60_exceptions.md R102). -/

namespace Sys2Proof.Machine

theorem answeredIllegal_iff {w : CmdWord} : AnsweredIllegal w ↔ ∀ i, w ≠ encode i := by
  simp only [AnsweredIllegal, instr?_eq_none_iff, ne_eq, decode_eq_command_iff, and_iff_left_iff_imp]
  intro hnone s
  cases hw : decode w with
  | command i => exact absurd (decode_eq_command_iff.mp hw) (hnone i)
  | illegal why => exact runWord_illegal hw s

theorem answeredIllegal_toWord {f : CmdFields} (h : ∀ i, encodeFields i ≠ f) : AnsweredIllegal f.toWord :=
  answeredIllegal_iff.mpr fun i hi => h i (by simpa [encode] using (congrArg CmdFields.ofWord hi).symm)

variable {f : CmdFields}

theorem answeredIllegal_of_op (h : f.op ∉ [1#4, 2#4, 3#4, 4#4, 8#4, 9#4]) : AnsweredIllegal f.toWord :=
  answeredIllegal_toWord fun i hi => h (hi ▸ encodeFields_op i)

theorem answeredIllegal_of_rsv (h : f.rsv ≠ 0) : AnsweredIllegal f.toWord :=
  answeredIllegal_toWord fun i hi => h (hi ▸ encodeFields_rsv i)

theorem answeredIllegal_of_mode (hop : f.op ∈ [1#4, 2#4, 3#4, 4#4]) (h : f.mode ≠ 0) : AnsweredIllegal f.toWord :=
  answeredIllegal_toWord <| by rintro i rfl; exact h (encodeFields_mode hop)

theorem answeredIllegal_of_data_of_no_operand (hop : f.op ∈ [1#4, 3#4]) (h : f.data ≠ 0) : AnsweredIllegal f.toWord :=
  answeredIllegal_toWord <| by rintro i rfl; exact h (encodeFields_data_of_no_operand hop)

theorem answeredIllegal_of_upd8_data (hop : f.op = 2) (h : f.data.extractLsb' 8 24 ≠ 0) : AnsweredIllegal f.toWord :=
  answeredIllegal_toWord <| by rintro i rfl; exact h (encodeFields_data_of_upd8 hop)

theorem answeredIllegal_of_check_data (hop : f.op = 4) (h : f.data.extractLsb' 16 16 ≠ 0) : AnsweredIllegal f.toWord :=
  answeredIllegal_toWord <| by rintro i rfl; exact h (encodeFields_data_of_check hop)

end Sys2Proof.Machine
end

section
/-! The rows of the opcode table and the words that meet them (spec/30_encoding.md R39, R46). -/

namespace Sys2Proof

/-- A field of a word, put back in its place. -/
theorem extractLsb'_setWidth_shiftLeft (w : CmdWord) (start len : Nat) :
    (w.extractLsb' start len).setWidth 40 <<< start = w &&& (BitVec.allOnes len).setWidth 40 <<< start := by
  refine BitVec.eq_of_getLsbD_eq fun k hk => ?_
  by_cases hks : k < start
  · simp [hks]
  · simp [hk, hks, show start + (k - start) = k by omega, Bool.and_comm]

/-- The operand of a word, which stands in its lowest bits. -/
theorem extractLsb'_zero_setWidth (w : CmdWord) (len : Nat) :
    (w.extractLsb' 0 len).setWidth 40 = w &&& (BitVec.allOnes len).setWidth 40 := by
  simpa using extractLsb'_setWidth_shiftLeft w 0 len

theorem encode_crcInit : encode .crcInit = 0x1000000000#40 := by decide

theorem encode_crcRead : encode .crcRead = 0x3000000000#40 := by decide

theorem encode_crcUpd8 (byte : Byte) : encode (.crcUpd8 byte) = 0x2000000000#40 ||| byte.setWidth 40 := by
  simp [encode, encodeFields, CmdFields.toWord_eq_or]

theorem encode_crcCheck (rx : Half) : encode (.crcCheck rx) = 0x4000000000#40 ||| rx.setWidth 40 := by
  simp [encode, encodeFields, CmdFields.toWord_eq_or]

theorem encode_swpPack (mode : Mode) (x : Dword) :
    encode (.swpPack mode x) = 0x8000000000#40 ||| mode.code.setWidth 40 <<< 34 ||| x.setWidth 40 := by
  simp [encode, encodeFields, CmdFields.toWord_eq_or]

theorem encode_swpUnpack (mode : Mode) (v : Dword) :
    encode (.swpUnpack mode v) = 0x9000000000#40 ||| mode.code.setWidth 40 <<< 34 ||| v.setWidth 40 := by
  simp [encode, encodeFields, CmdFields.toWord_eq_or]

/-- Meeting a row is being its match with the free bits of the word: the mask's complement. -/
theorem and_mask_eq_iff {w mask pattern : CmdWord} (hpat : pattern &&& mask = pattern) :
    w &&& mask = pattern ↔ w = pattern ||| (w &&& ~~~mask) := by
  constructor
  · rintro rfl
    rw [← BitVec.and_or_distrib_left, BitVec.or_not_self, BitVec.and_allOnes]
  · intro h
    rw [h, BitVec.and_or_distrib_right, hpat, BitVec.and_assoc, BitVec.not_and_self]
    simp

theorem and_mask_eq_iff_decode {w mask pattern : CmdWord} {i : Instr} (hpat : pattern &&& mask = pattern)
    (hrow : encode i = pattern ||| (w &&& ~~~mask)) : w &&& mask = pattern ↔ decode w = .command i := by
  rw [and_mask_eq_iff hpat, decode_eq_command_iff, hrow]

theorem crcInit_row (w : CmdWord) : w &&& 0xFFFFFFFFFF#40 = 0x1000000000#40 ↔ decode w = .command .crcInit :=
  and_mask_eq_iff_decode (by decide) (by rw [encode_crcInit]; simp)

theorem crcUpd8_row (w : CmdWord) :
    w &&& 0xFFFFFFFF00#40 = 0x2000000000#40 ↔ decode w = .command (.crcUpd8 (w.extractLsb' 0 8)) :=
  and_mask_eq_iff_decode (by decide) (by rw [encode_crcUpd8, extractLsb'_zero_setWidth]; simp)

theorem crcRead_row (w : CmdWord) : w &&& 0xFFFFFFFFFF#40 = 0x3000000000#40 ↔ decode w = .command .crcRead :=
  and_mask_eq_iff_decode (by decide) (by rw [encode_crcRead]; simp)

theorem crcCheck_row (w : CmdWord) :
    w &&& 0xFFFFFF0000#40 = 0x4000000000#40 ↔ decode w = .command (.crcCheck (w.extractLsb' 0 16)) :=
  and_mask_eq_iff_decode (by decide) (by rw [encode_crcCheck, extractLsb'_zero_setWidth]; simp)

/-- The two swap rows leave the same bits free: the mode and the operand. -/
theorem swap_operands_eq_free_bits (w pattern : CmdWord) :
    pattern ||| (w.extractLsb' 34 2).setWidth 40 <<< 34 ||| (w.extractLsb' 0 32).setWidth 40 =
      pattern ||| (w &&& ~~~0xF300000000#40) := by
  rw [extractLsb'_setWidth_shiftLeft, extractLsb'_zero_setWidth, BitVec.or_assoc, ← BitVec.and_or_distrib_left]
  simp

theorem swpPack_row (w : CmdWord) : w &&& 0xF300000000#40 = 0x8000000000#40 ↔
    decode w = .command (.swpPack (Mode.ofCode (w.extractLsb' 34 2)) (w.extractLsb' 0 32)) :=
  and_mask_eq_iff_decode (by decide) (by rw [encode_swpPack, Mode.code_ofCode, swap_operands_eq_free_bits])

theorem swpUnpack_row (w : CmdWord) : w &&& 0xF300000000#40 = 0x9000000000#40 ↔
    decode w = .command (.swpUnpack (Mode.ofCode (w.extractLsb' 34 2)) (w.extractLsb' 0 32)) :=
  and_mask_eq_iff_decode (by decide) (by rw [encode_swpUnpack, Mode.code_ofCode, swap_operands_eq_free_bits])

/-- Bits of the operand of `CRC.CHECK` in its word. -/
theorem extractLsb'_encode_crcCheck (rx : Half) {start len : Nat} (h : start + len ≤ 16) :
    (encode (.crcCheck rx)).extractLsb' start len = rx.extractLsb' start len := by
  rw [encode, encodeFields, CmdFields.toWord, BitVec.extractLsb'_append_eq_of_add_le (by omega)]
  refine BitVec.eq_of_getLsbD_eq fun k hk => ?_
  simp [hk, show start + k < 32 by omega]

theorem OpcodeRow.spells_iff {r : OpcodeRow} {w : CmdWord} : r.spells w = true ↔ w &&& r.mask = r.pattern := beq_iff_eq

/-- No two rows agree on the bits both fix. -/
theorem opcodeRows_disjoint {r r' : OpcodeRow} (hr : r ∈ opcodeRows) (hr' : r' ∈ opcodeRows)
    (h : r.pattern &&& r'.mask = r'.pattern &&& r.mask) : r = r' := by
  have hall : ∀ r ∈ opcodeRows, ∀ r' ∈ opcodeRows, r.pattern &&& r'.mask = r'.pattern &&& r.mask → r = r' := by decide
  exact hall r hr r' hr' h

theorem opcodeRow_unique {w : CmdWord} {r r' : OpcodeRow} (hr : r ∈ opcodeRows) (hr' : r' ∈ opcodeRows)
    (h : r.spells w = true) (h' : r'.spells w = true) : r = r' := by
  rw [OpcodeRow.spells_iff] at h h'
  refine opcodeRows_disjoint hr hr' ?_
  rw [← h, ← h', BitVec.and_assoc, BitVec.and_assoc, BitVec.and_comm r.mask]

/-- The six rows are all the commands there are. -/
theorem exists_row_spells_iff (w : CmdWord) : (∃ r ∈ opcodeRows, r.spells w = true) ↔ ∃ i, w = encode i := by
  constructor
  · simp only [opcodeRows, List.exists_mem_cons_iff, List.not_mem_nil, false_and, exists_false, or_false,
      OpcodeRow.spells_iff, crcInit_row, crcUpd8_row, crcRead_row, crcCheck_row, swpPack_row, swpUnpack_row,
      decode_eq_command_iff]
    rintro (h | h | h | h | h | h) <;> exact ⟨_, h⟩
  · rintro ⟨i, rfl⟩
    cases i with
    | crcInit => exact Laws.Encoding.crcInit
    | crcUpd8 byte => exact Laws.Encoding.crcUpd8 byte
    | crcRead => exact Laws.Encoding.crcRead
    | crcCheck rx => exact Laws.Encoding.crcCheck rx
    | swpPack mode x => exact Laws.Encoding.swpPack mode x
    | swpUnpack mode v => exact Laws.Encoding.swpUnpack mode v

end Sys2Proof
end

section
/-! How many words are legal (spec/30_encoding.md R41). -/

namespace Sys2Proof

/-- A command is a choice of its row and of the bits the row leaves free. -/
def instrEquivFreeBits :
    Instr ≃ Unit ⊕ Byte ⊕ Unit ⊕ Half ⊕ (BitVec 2 × Dword) ⊕ (BitVec 2 × Dword) where
  toFun
    | .crcInit => .inl ()
    | .crcUpd8 byte => .inr (.inl byte)
    | .crcRead => .inr (.inr (.inl ()))
    | .crcCheck rx => .inr (.inr (.inr (.inl rx)))
    | .swpPack mode x => .inr (.inr (.inr (.inr (.inl (mode.code, x)))))
    | .swpUnpack mode v => .inr (.inr (.inr (.inr (.inr (mode.code, v)))))
  invFun
    | .inl () => .crcInit
    | .inr (.inl byte) => .crcUpd8 byte
    | .inr (.inr (.inl ())) => .crcRead
    | .inr (.inr (.inr (.inl rx))) => .crcCheck rx
    | .inr (.inr (.inr (.inr (.inl (code, x))))) => .swpPack (Mode.ofCode code) x
    | .inr (.inr (.inr (.inr (.inr (code, v))))) => .swpUnpack (Mode.ofCode code) v
  left_inv i := by cases i <;> simp
  right_inv
    | .inl () | .inr (.inl _) | .inr (.inr (.inl ())) | .inr (.inr (.inr (.inl _))) => rfl
    | .inr (.inr (.inr (.inr (.inl (_, _))))) | .inr (.inr (.inr (.inr (.inr (_, _))))) => by simp

theorem card_bitVec (n : Nat) : Nat.card (BitVec n) = 2 ^ n := by
  rw [Nat.card_congr BitVec.equivFin.toEquiv, Nat.card_fin]

theorem card_instr : Nat.card Instr = 1 + 256 + 1 + 65536 + 4 * 2 ^ 32 + 4 * 2 ^ 32 := by
  rw [Nat.card_congr instrEquivFreeBits]
  simp only [Nat.card_sum, Nat.card_prod, card_bitVec, Nat.card_unique]
  rfl

theorem ncard_legal_words : {w : CmdWord | ∃ i, decode w = .command i}.ncard = Nat.card Instr := by
  have hrange : {w : CmdWord | ∃ i, decode w = .command i} = Set.range encode := by
    ext w; simp only [Set.mem_ofPred_eq, Set.mem_range, decode_eq_command_iff, eq_comm]
  rw [hrange, Set.ncard_range_of_injective encode_injective]

end Sys2Proof
end

section
/-! The response to a command word (spec/30_encoding.md R36). -/

namespace Sys2Proof.Machine

/-- Every command word is answered by some status and data, and by data only where a command returns a value (R36). -/
theorem runWord_answers (w : CmdWord) (s : State) : ∃ (t : State) (st : Status) (d : Dword),
    runWord w s = .next t ∧ t.response = some (rsp st d) ∧
    ((decode w = .command .crcInit ∨ (∃ b, decode w = .command (.crcUpd8 b)) ∨ (decode w).instr? = none) → d = 0) := by
  cases h : decode w with
  | illegal why => exact ⟨_, _, _, runWord_illegal h s, rfl, fun _ => rfl⟩
  | command i =>
    have hrun := (runWord_command h s).trans (exec_eq i s)
    cases i with
    | crcInit | crcUpd8 _ => exact ⟨_, _, _, hrun, rfl, fun _ => rfl⟩
    | crcRead | crcCheck _ | swpPack _ _ | swpUnpack _ _ => exact ⟨_, _, _, hrun, rfl, by simp⟩

theorem Status.code_ne_three (st : Status) : st.code ≠ 3 := by
  cases st <;> decide

end Sys2Proof.Machine
end

section
/-! The statements about the encoding (spec/30_encoding.md R35, R36, R38 to R41, R46). -/

namespace Sys2Proof.Machine

/-- Settles O2: the checks of the decoder in their order, and each encoding as its fields put side by side. -/
theorem decodeFollowsTheProcedure : Obligations.DecodeFollowsTheProcedure := by
  refine ⟨fun w => ?_, encode_crcInit, encode_crcUpd8, encode_crcRead, encode_crcCheck, encode_swpPack, encode_swpUnpack,
    decode_encode⟩
  rw [decode, decodeFields]
  simp only [apply_ite Decoded.instr?, instr?_decodeCrc, instr?_command, instr?_illegal, beq_iff_eq]
  rfl

/-- Settles O3: the classes of R40 one by one, and `decode_eq_command_iff`, which leaves a command one word. -/
theorem mustBeZeroBitsRefused : Obligations.MustBeZeroBitsRefused := by
  refine ⟨fun f => ⟨answeredIllegal_of_rsv, fun hop => answeredIllegal_of_mode (by simpa using hop),
    fun hop => answeredIllegal_of_data_of_no_operand (by simpa using hop), answeredIllegal_of_upd8_data,
    answeredIllegal_of_check_data⟩, fun w i h => (decode_eq_command_iff.mp h).symm, fun w w' i h h' => ?_⟩
  rw [decode_eq_command_iff.mp h, decode_eq_command_iff.mp h']

/-- Settles O4: a word meets a row when it is the row's encoding of the word's own free bits. -/
theorem rowsSpellTheirCommands : Obligations.RowsSpellTheirCommands := by
  refine ⟨fun w => ⟨crcInit_row w, crcUpd8_row w, crcRead_row w, crcCheck_row w, swpPack_row w, swpUnpack_row w⟩,
    fun w r r' => opcodeRow_unique, fun lo hi => ?_⟩
  rw [extractLsb'_encode_crcCheck _ (by decide), extractLsb'_encode_crcCheck _ (by decide), receivedCrc]
  exact ⟨BitVec.extractLsb'_append_eq_right, BitVec.extractLsb'_append_eq_left⟩

/-- Settles O5: a word meets a row when it is a command's encoding, and the commands are counted by their free bits. -/
theorem illegalExactlyWhenNoRowMatches : Obligations.IllegalExactlyWhenNoRowMatches := by
  refine ⟨fun w => ?_, fun f => ⟨fun hop => answeredIllegal_of_op ?_, fun _ => answeredIllegal_of_rsv,
    answeredIllegal_of_mode, answeredIllegal_of_data_of_no_operand, answeredIllegal_of_upd8_data,
    answeredIllegal_of_check_data⟩, ?_, ?_, ncard_legal_words.trans card_instr⟩
  · have hrow := not_congr (exists_row_spells_iff w)
    rw [answeredIllegal_iff]
    push Not at hrow
    simpa using hrow.symm
  · generalize f.op = op at hop; revert op; decide
  · exact answeredIllegal_of_op (f := ⟨0, 0, 0, 0⟩) (by decide)
  · exact answeredIllegal_of_op (f := ⟨0xF, 3, 3, 0xFFFFFFFF⟩) (by decide)

/-- Settles O8: `runWord_answers`, whose response is a status and data put together. -/
theorem oneResponsePerCommandWord : Obligations.OneResponsePerCommandWord := by
  refine ⟨fun st d => ⟨rspStatus_rsp st d, rspData_rsp st d⟩, rfl, rfl, rfl, fun s w => ?_⟩
  obtain ⟨t, st, d, hrun, hresponse, hdata⟩ := runWord_answers w s
  exact ⟨t, rsp st d, hrun, hresponse, by rw [rspStatus_rsp]; exact st.code_ne_three, by rwa [rspData_rsp]⟩

/-- Settles O6: the table of R38, and `Mode.ofCode`, which names a mode for every code. -/
theorem modeCodesAndTheirSwaps : Obligations.ModeCodesAndTheirSwaps := by
  refine ⟨by decide, by decide, by decide, by decide, fun m => ⟨rfl, rfl⟩,
    fun c x => ⟨Mode.ofCode c, Mode.code_ofCode c, ?_, ?_⟩⟩ <;> simp [decodeFields]

/-- Settles O7: the word and its fields determine each other, and the broken must-be-zero rules spell no command. -/
theorem commandWordFields : Obligations.CommandWordFields := by
  refine ⟨fun f => ?_, CmdFields.toWord_ofWord, fun f h => (answeredIllegal_of_rsv h).1,
    fun f hop h => (answeredIllegal_of_mode (by simpa using hop) h).1⟩
  have hfields := CmdFields.ofWord_toWord f
  exact ⟨congrArg CmdFields.op hfields, congrArg CmdFields.mode hfields, congrArg CmdFields.rsv hfields,
    congrArg CmdFields.data hfields, hfields, f.toNat_toWord⟩

end Sys2Proof.Machine
end

section
/-! The one-bit step bit by bit, its linearity, and its inverse (spec/40_crc.md R50, R57, R62). -/

namespace Sys2Proof.Machine

theorem getLsbD_crcBit (c : Half) (d : Bool) (i : Nat) :
    (crcBit c d).getLsbD i = (c.getLsbD (i + 1) ^^ ((c.getLsbD 0 ^^ d) && Config.crcPoly.getLsbD i)) := by
  rw [crcBit]
  cases c.getLsbD 0 ^^ d <;> simp [Nat.add_comm 1 i]

/-- The bits of the constant, as R50 lists them. -/
theorem getLsbD_crcPoly (i : Nat) : Config.crcPoly.getLsbD i = decide (i = 0 ∨ i = 13 ∨ i = 15) := by
  by_cases hi : i < 16
  · interval_cases i <;> rfl
  · have hne : i ≠ 0 ∧ i ≠ 13 ∧ i ≠ 15 := by omega
    simp [not_lt.mp hi, hne]

/-- The feedback bit stands in bit 15 of the result, so that the step can be undone. -/
theorem getLsbD_fifteen_crcBit (c : Half) (d : Bool) : (crcBit c d).getLsbD 15 = (c.getLsbD 0 ^^ d) := by
  rw [getLsbD_crcBit, getLsbD_crcPoly]; simp

/-- The one-bit step is linear over XOR in register and data bit together. -/
theorem crcBit_xor (c₁ c₂ : Half) (d₁ d₂ : Bool) :
    crcBit (c₁ ^^^ c₂) (d₁ ^^ d₂) = crcBit c₁ d₁ ^^^ crcBit c₂ d₂ := by
  refine BitVec.eq_of_getLsbD_eq fun i _ => ?_
  simp only [getLsbD_crcBit, BitVec.getLsbD_xor, Bool.and_xor_distrib_right, Bool.xor_assoc, Bool.xor_left_comm]

/-- The register before a one-bit step, from the register after it and the data bit (R57). -/
def crcBitInv (n : Half) (d : Bool) : Half :=
  ((n ^^^ if n.getLsbD 15 = true then 0xA001#16 else 0x0000#16) <<< 1) |||
    (BitVec.ofBool (n.getLsbD 15 ^^ d)).setWidth 16

theorem crcBitInv_crcBit (c : Half) (d : Bool) : crcBitInv (crcBit c d) d = c := by
  have hundo : crcBit c d ^^^ (if (crcBit c d).getLsbD 15 = true then 0xA001#16 else 0x0000#16) = c >>> 1 := by
    rw [getLsbD_fifteen_crcBit, crcBit, Config.crcPoly]
    cases c.getLsbD 0 ^^ d <;> simp
  rw [crcBitInv, hundo, getLsbD_fifteen_crcBit]
  refine BitVec.eq_of_getLsbD_eq fun i hi => ?_
  cases i with
  | zero => simp
  | succ i => simp [hi, Nat.add_comm 1 i]

theorem crcBit_left_inj {c c' : Half} {d : Bool} : crcBit c d = crcBit c' d ↔ c = c' :=
  (Function.LeftInverse.injective (g := (crcBitInv · d)) fun c => crcBitInv_crcBit c d).eq_iff

end Sys2Proof.Machine
end

section
/-! The eight rounds of the XOR-first form, which take in a byte, or two by running twice (spec/40_crc.md R57, R59, R60). -/

namespace Sys2Proof.Machine

/-- A round shifts out what was XORed in beforehand, one bit of it at a time. -/
theorem xorFirstRound_xor (c x : Half) : xorFirstRound (c ^^^ x) = crcBit c (x.getLsbD 0) ^^^ (x >>> 1) := by
  rw [xorFirstRound, crcBit, BitVec.getLsbD_xor, BitVec.ushiftRight_xor_distrib]
  cases c.getLsbD 0 ^^ x.getLsbD 0
  · rfl
  · simp only [if_true]; ac_rfl

theorem xorFirstRound_eq (c : Half) : xorFirstRound c = crcBit c false := by
  simpa using xorFirstRound_xor c 0

/-- The rounds of the XOR-first form (R59 (a)), without the XOR. -/
def eightRounds (c : Half) : Half :=
  Nat.repeat xorFirstRound 8 c

theorem eightRounds_injective : Function.Injective eightRounds := fun c c' h => by
  simpa only [eightRounds, Nat.repeat, xorFirstRound_eq, crcBit_left_inj] using h

theorem eightRounds_zero : eightRounds 0x0000#16 = 0x0000#16 := by
  simp [eightRounds, Nat.repeat, xorFirstRound]

theorem eightRounds_bijective : Function.Bijective eightRounds :=
  Finite.injective_iff_bijective.mp eightRounds_injective

/-- Eight rounds take in the low byte of what was XORed in beforehand, and leave the rest of it eight places lower. -/
theorem eightRounds_xor (c x : Half) : eightRounds (c ^^^ x) = crcByte c (x.setWidth 8) ^^^ (x >>> 8) := by
  simp [eightRounds, Nat.repeat, xorFirstRound_xor, crcByte_eq]

theorem crcByteXorFirst_eq (c : Half) (b : Byte) : crcByteXorFirst c b = eightRounds (c ^^^ b.setWidth 16) := rfl

/-- The XOR-first form takes in the whole byte: nothing of it is left above its eight bits (R59 (a)). -/
theorem crcByte_eq_xorFirst (c : Half) (b : Byte) : crcByte c b = crcByteXorFirst c b := by
  have hrest : b.setWidth 16 >>> 8 = 0 := BitVec.eq_of_getLsbD_eq fun i _ => by simp
  rw [crcByteXorFirst_eq, eightRounds_xor, hrest]
  simp

theorem crcByte_left_inj {c c' : Half} {b : Byte} : crcByte c b = crcByte c' b ↔ c = c' := by
  rw [crcByte_eq, crcByte_eq]
  simp only [crcBit_left_inj]

theorem crcByte_right_inj {c : Half} {b b' : Byte} : crcByte c b = crcByte c b' ↔ b = b' := by
  rw [crcByte_eq_xorFirst, crcByte_eq_xorFirst, crcByteXorFirst_eq, crcByteXorFirst_eq, eightRounds_injective.eq_iff,
    BitVec.xor_right_inj]
  refine ⟨fun h => ?_, congrArg _⟩
  simpa using congrArg (BitVec.setWidth 8) h

theorem crcBytes_left_inj {c c' : Half} {m : List Byte} : crcBytes c m = crcBytes c' m ↔ c = c' := by
  induction m generalizing c c' with
  | nil => rfl
  | cons b m ih => rw [crcBytes_cons, crcBytes_cons, ih, crcByte_left_inj]

/-- The upper byte of the register passes through a byte step unchanged (R59 (b)). -/
theorem crcByte_eq_shift_xor (c : Half) (b : Byte) :
    crcByte c b = (c >>> 8) ^^^ crcByte 0x0000#16 (c.extractLsb' 0 8 ^^^ b) := by
  have hrest : (c ^^^ b.setWidth 16) >>> 8 = c >>> 8 := BitVec.eq_of_getLsbD_eq fun i _ => by simp
  have hbyte : (c ^^^ b.setWidth 16).setWidth 8 = c.extractLsb' 0 8 ^^^ b :=
    BitVec.eq_of_getLsbD_eq fun i hi => by simp [hi, show i < 16 by omega]
  calc crcByte c b = eightRounds (0x0000#16 ^^^ (c ^^^ b.setWidth 16)) := by
        rw [crcByte_eq_xorFirst, crcByteXorFirst_eq, BitVec.zero_xor]
    _ = crcByte 0x0000#16 (c.extractLsb' 0 8 ^^^ b) ^^^ (c >>> 8) := by rw [eightRounds_xor, hrest, hbyte]
    _ = (c >>> 8) ^^^ crcByte 0x0000#16 (c.extractLsb' 0 8 ^^^ b) := BitVec.xor_comm _ _

theorem getLsbD_receivedCrc (lo hi : Byte) (i : Nat) :
    (receivedCrc lo hi).getLsbD i = if i < 8 then lo.getLsbD i else hi.getLsbD (i - 8) :=
  BitVec.getLsbD_append

/-- Two bytes are taken in like the 16 bits they make, the first one low. -/
theorem crcBytes_pair (c : Half) (lo hi : Byte) :
    crcBytes c [lo, hi] = eightRounds (eightRounds (c ^^^ receivedCrc lo hi)) := by
  have hlo : (receivedCrc lo hi).setWidth 8 = lo :=
    BitVec.eq_of_getLsbD_eq fun i h => by simp [getLsbD_receivedCrc, h]
  have hhi : receivedCrc lo hi >>> 8 = hi.setWidth 16 :=
    BitVec.eq_of_getLsbD_eq fun i h => by simp [getLsbD_receivedCrc, h]
  rw [eightRounds_xor, hlo, hhi, ← crcByteXorFirst_eq, ← crcByte_eq_xorFirst]
  rfl

theorem xor_eq_iff {c x u : Half} : c ^^^ x = u ↔ x = c ^^^ u := by
  rw [← BitVec.xor_right_inj c, ← BitVec.xor_assoc, BitVec.xor_self, BitVec.zero_xor]

theorem receivedCrc_eq_iff {lo hi : Byte} {c : Half} :
    receivedCrc lo hi = c ↔ lo = c.extractLsb' 0 8 ∧ hi = c.extractLsb' 8 8 := by
  constructor
  · rintro rfl
    exact ⟨BitVec.extractLsb'_append_eq_right.symm, BitVec.extractLsb'_append_eq_left.symm⟩
  · rintro ⟨rfl, rfl⟩
    rw [receivedCrc, BitVec.extractLsb'_append_extractLsb'_eq_extractLsb' (by decide)]
    exact BitVec.extractLsb'_eq_self

/-- From every start exactly one pair of bytes reaches each target (R57). -/
theorem existsUnique_crcBytes_pair (c t : Half) : ∃! p : Byte × Byte, crcBytes c [p.1, p.2] = t := by
  obtain ⟨u, rfl⟩ := (eightRounds_bijective.comp eightRounds_bijective).surjective t
  have hiff (p : Byte × Byte) :
      crcBytes c [p.1, p.2] = (eightRounds ∘ eightRounds) u ↔
        p = ((c ^^^ u).extractLsb' 0 8, (c ^^^ u).extractLsb' 8 8) := by
    rw [crcBytes_pair, Function.comp_apply, eightRounds_injective.eq_iff, eightRounds_injective.eq_iff, Prod.ext_iff,
      ← receivedCrc_eq_iff, xor_eq_iff]
  exact ⟨_, (hiff _).mpr rfl, fun p hp => (hiff p).mp hp⟩

/-- The residue of two bytes is zero exactly when the register spells them, low byte first (R60). -/
theorem crcBytes_pair_eq_zero_iff {c : Half} {lo hi : Byte} : crcBytes c [lo, hi] = 0x0000#16 ↔ receivedCrc lo hi = c := by
  have hzero : eightRounds (eightRounds 0x0000#16) = 0x0000#16 := by rw [eightRounds_zero, eightRounds_zero]
  rw [crcBytes_pair, ← hzero, eightRounds_injective.eq_iff, eightRounds_injective.eq_iff, xor_eq_iff,
    BitVec.xor_zero]

end Sys2Proof.Machine
end

section
/-! The printed table, and linearity over byte sequences (spec/40_crc.md R59, R62). -/

namespace Sys2Proof.Machine

/-- Entry `i` of the printed table is `crc_byte(0x0000, i)` (R59 (b)). -/
theorem crcTable_eq : crcTable = List.ofFn fun i : Fin 256 => crcByte 0x0000#16 (BitVec.ofFin i) := by
  decide +kernel

theorem crcTable_getElem? (b : Byte) : crcTable[b.toNat]? = some (crcByte 0x0000#16 b) := by
  rw [crcTable_eq, List.getElem?_ofFn, dif_pos b.isLt]
  rfl

theorem crcByteTable_eq (c : Half) (b : Byte) : crcByteTable c b = crcByte c b := by
  rw [crcByteTable, List.getD_eq_getElem?_getD, crcTable_getElem?, Option.getD_some, ← crcByte_eq_shift_xor]

theorem crcByte_xor (c₁ c₂ : Half) (b₁ b₂ : Byte) :
    crcByte (c₁ ^^^ c₂) (b₁ ^^^ b₂) = crcByte c₁ b₁ ^^^ crcByte c₂ b₂ := by
  simp only [crcByte_eq, BitVec.getLsbD_xor, crcBit_xor]

theorem crcBytes_xor {m₁ m₂ : List Byte} (hlen : m₁.length = m₂.length) (c₁ c₂ : Half) :
    crcBytes (c₁ ^^^ c₂) (List.zipWith (· ^^^ ·) m₁ m₂) = crcBytes c₁ m₁ ^^^ crcBytes c₂ m₂ := by
  induction m₁ generalizing m₂ c₁ c₂ with
  | nil => rw [List.length_eq_zero_iff.mp hlen.symm]; rfl
  | cons b₁ m₁ ih =>
    obtain ⟨b₂, m₂, rfl⟩ := List.exists_cons_of_length_eq_add_one hlen.symm
    rw [List.zipWith_cons_cons, crcBytes_cons, crcByte_xor, ih (Nat.succ.inj hlen)]
    rfl

theorem crcBytes_zero (k : Nat) : crcBytes 0x0000#16 (List.replicate k 0x00#8) = 0x0000#16 := by
  have hbyte : crcByte 0x0000#16 0x00#8 = 0x0000#16 := by decide
  induction k with
  | zero => rfl
  | succ k ih => rw [List.replicate_succ, crcBytes_cons, hbyte, ih]

end Sys2Proof.Machine
end

section
/-! The CRC commands issued, the host sequences made of them, and the trailer of a frame (spec/40_crc.md R55, R56, R60, R61;
42_frame_pseudo_ops.md R85 to R87). -/

namespace Sys2Proof.Machine

/-- The state when a frame's bytes have been absorbed: every command so far was answered `OK` with no data. -/
def frameAbsorbed (m : List Byte) (s : State) : State where
  block := { crc := crc16Modbus m }
  inputs := s.inputs
  response := some (rsp .ok 0)

@[simp] theorem frameAbsorbed_crc (m : List Byte) (s : State) : (frameAbsorbed m s).block.crc = crc16Modbus m := rfl

theorem absorb_eq (m : List Byte) (c : Half) (inputs : List HostInput) :
    absorb m { block := { crc := c }, inputs := inputs, response := some (rsp .ok 0) } =
      .next { block := { crc := crcBytes c m }, inputs := inputs, response := some (rsp .ok 0) } := by
  induction m generalizing c with
  | nil => rfl
  | cons b m ih => exact (issueAll_cons _ _ _).trans (ih (crcByte c b))

theorem startFrame_eq (m : List Byte) (s : State) : startFrame m s = .next (frameAbsorbed m s) := by
  rw [startFrame, issueAll_cons]
  exact absorb_eq m Config.crcInit s.inputs

theorem setWidth_eq_zero_append (c : Half) : c.setWidth 32 = 0#16 ++ c :=
  BitVec.setWidth_eq_append (by decide)

theorem issue_crcRead {s : State} {c : Half} (h : s.block.crc = c) :
    issue .crcRead s = .next (rsp .ok (0#16 ++ c), stateAfter .crcRead s) := by
  rw [issue_eq_next, responseTo, setWidth_eq_zero_append, h]

theorem crcCalc_eq (m : List Byte) (s : State) :
    crcCalc m s = .next (crc16Modbus m, stateAfter .crcRead (frameAbsorbed m s)) := by
  rw [crcCalc, startFrame_eq, andThen_next, issue_eq_next, andThen_next, responseTo, rspData_rsp,
    extractLsb'_setWidth_low (by decide)]
  rfl

theorem frameGen_eq (m : List Byte) (s : State) :
    frameGen m s = .next (m ++ trailer (crc16Modbus m), stateAfter .crcRead (frameAbsorbed m s)) := by
  rw [frameGen, crcCalc_eq, andThen_next]

theorem Status.code_inj {a b : Status} : a.code = b.code ↔ a = b :=
  ⟨Status.code_injective, congrArg _⟩

theorem frameVerify_eq {minLen : Config.MinFrameLen} {frame : List Byte} (hlen : minLen.len ≤ frame.length) (s : State) :
    frameVerify minLen frame s = .next
      (if crc16Modbus (coveredBytes frame) = frameTrailer frame then .valid else .crcMismatch,
        stateAfter (.crcCheck (frameTrailer frame)) (frameAbsorbed (coveredBytes frame) s)) := by
  rw [frameVerify, if_neg (by omega), startFrame_eq, andThen_next, issue_eq_next, andThen_next, responseTo, rspStatus_rsp]
  simp only [Status.code_inj, checkStatus_ok_iff]
  rfl

theorem exists_eq_append_pair {frame : List Byte} (h : 2 ≤ frame.length) :
    ∃ (m : List Byte) (lo hi : Byte), frame = m ++ [lo, hi] := by
  obtain ⟨lo, hi, hlast⟩ := List.length_eq_two.mp (show (frame.drop (frame.length - 2)).length = 2 by simp; omega)
  exact ⟨_, lo, hi, hlast ▸ (List.take_append_drop _ frame).symm⟩

@[simp] theorem coveredBytes_append_pair (m : List Byte) (lo hi : Byte) : coveredBytes (m ++ [lo, hi]) = m := by
  simp [coveredBytes]

@[simp] theorem frameTrailer_append_pair (m : List Byte) (lo hi : Byte) :
    frameTrailer (m ++ [lo, hi]) = receivedCrc lo hi := by
  simp [frameTrailer]

/-- A frame's trailer is correct exactly when the whole frame leaves a zero residue (R60). -/
theorem trailer_correct_iff_residue_zero {frame : List Byte} (h : 2 ≤ frame.length) :
    crcBytes 0xFFFF#16 (coveredBytes frame) = frameTrailer frame ↔ crcBytes 0xFFFF#16 frame = 0x0000#16 := by
  obtain ⟨m, lo, hi, rfl⟩ := exists_eq_append_pair h
  rw [coveredBytes_append_pair, frameTrailer_append_pair, crcBytes_append, crcBytes_pair_eq_zero_iff, eq_comm]

/-- Changing one byte of a message changes its CRC. -/
theorem crcBytes_modify_ne {m : List Byte} {k : Nat} (hk : k < m.length) {f : Byte → Byte} (hf : ∀ b, f b ≠ b) (c : Half) :
    crcBytes c (m.modify k f) ≠ crcBytes c m := by
  obtain ⟨pre, b, post, hm, -, hmodify⟩ := List.exists_of_modify f hk
  rw [hmodify, hm, crcBytes_append, crcBytes_append, crcBytes_cons, crcBytes_cons, ne_eq, crcBytes_left_inj,
    crcByte_right_inj]
  exact hf b

theorem xor_bit_ne {j : Nat} (hj : j < 8) (b : Byte) : b ^^^ (1#8 <<< j) ≠ b := by
  intro h
  have hbit := congrArg (BitVec.getLsbD · j) h
  simp [hj] at hbit

/-- The CRC of the reference request (R58). -/
theorem crc16Modbus_request : crc16Modbus [0x01#8, 0x03#8, 0x00#8, 0x00#8, 0x00#8, 0x01#8] = 0x0A84#16 := by
  decide +kernel

theorem rsp_eq_iff {st st' : Status} {d : Dword} : rsp st d = rsp st' d ↔ st = st' := by
  refine ⟨fun h => Status.code_injective ?_, fun h => h ▸ rfl⟩
  simpa using congrArg rspStatus h

/-- Exchanging the bytes of a register keeps it only if they are equal. -/
theorem eq_bswap16_iff {c : Half} : c = bswap16 c ↔ c.extractLsb' 0 8 = c.extractLsb' 8 8 := by
  rw [eq_comm, bswap16, ← receivedCrc, receivedCrc_eq_iff]
  exact ⟨And.right, fun h => ⟨h.symm, h⟩⟩

theorem responseTo_crcCheck (c rx : Half) : responseTo c (.crcCheck rx) =
    if c = rx then rsp .ok (0#16 ++ c) else rsp .crcMismatch (0#16 ++ c) := by
  rw [responseTo, setWidth_eq_zero_append, checkStatus]
  split_ifs <;> rfl

theorem issue_crcCheck {s : State} {c : Half} (h : s.block.crc = c) (rx : Half) :
    issue (.crcCheck rx) s = .next
      (if c = rx then rsp .ok (0#16 ++ c) else rsp .crcMismatch (0#16 ++ c), stateAfter (.crcCheck rx) s) := by
  rw [issue_eq_next, h, responseTo_crcCheck]

end Sys2Proof.Machine
end

section
/-! The statements about the CRC function and the CRC commands (spec/40_crc.md R50 to R63). -/

namespace Sys2Proof.Machine

/-- Settles O25: `getLsbD_crcBit` at each place, with the constant's bit there. -/
theorem crcBitByBit : Obligations.CrcBitByBit := by
  intro c d
  refine ⟨rfl, getLsbD_fifteen_crcBit c d, ?_, ?_, fun i h1 h12 => ?_, ?_⟩
  · rw [getLsbD_crcBit, getLsbD_crcPoly]; simp
  · rw [getLsbD_crcBit, getLsbD_crcPoly]; simp
  · have hne : i ≠ 0 ∧ i ≠ 13 ∧ i ≠ 15 := by omega
    rw [getLsbD_crcBit, getLsbD_crcPoly]; simp [hne]
  · rw [getLsbD_crcBit, getLsbD_crcPoly]; simp

/-- Settles O27: the equations of the fold, and `startFrame_eq`, whose register `CRC.READ` returns as it is (R63). -/
theorem crcOfByteSequence : Obligations.CrcOfByteSequence :=
  ⟨crcBytes_nil, crcBytes_cons, fun _ => rfl, rfl,
    fun m s => ⟨_, startFrame_eq m s, rfl, _, issue_crcRead rfl⟩⟩

/-- Settles O28: eight rounds take in a byte at once, and leave the upper byte of the register to be XORed on after the lookup. -/
theorem crcByteEquivalentForms : Obligations.CrcByteEquivalentForms := fun c b =>
  ⟨crcByte_eq_xorFirst c b, crcByte_eq_shift_xor c b, (crcByteTable_eq c b).symm, crcTable_getElem? b, rfl⟩

/-- Settles O29: each step is injective on a finite set of registers; two bytes are the 16 bits that make up the difference. -/
theorem crcStepsAreBijections : Obligations.CrcStepsAreBijections := by
  have bijective_of_inj {f : Half → Half} (hf : ∀ {c c'}, f c = f c' ↔ c = c') : Function.Bijective f :=
    Finite.injective_iff_bijective.mp fun _ _ => hf.mp
  refine ⟨fun d => bijective_of_inj crcBit_left_inj, fun c d => (crcBitInv_crcBit c d).symm,
    fun b => bijective_of_inj crcByte_left_inj, existsUnique_crcBytes_pair, fun t => ?_, by decide⟩
  obtain ⟨p, hp, -⟩ := existsUnique_crcBytes_pair 0xFFFF#16 t
  exact ⟨[p.1, p.2], hp⟩

/-- Settles O30: linearity of the bit step, carried over the bits of a byte and the bytes of a list. -/
theorem crcIsLinear : Obligations.CrcIsLinear := by
  refine ⟨fun m₁ m₂ c₁ c₂ hlen => crcBytes_xor hlen c₁ c₂, crcBytes_zero, fun m e c hlen => ?_⟩
  rw [← crcBytes_xor hlen, BitVec.xor_zero]

/-- Settles O31: `crcBytes_pair_eq_zero_iff` after any message. -/
theorem residueIsZeroExactlyForTheTrailer : Obligations.ResidueIsZeroExactlyForTheTrailer := by
  intro m lo hi c
  rw [crcBytes_append, crcBytes_pair_eq_zero_iff, receivedCrc_eq_iff]
  exact ⟨Iff.rfl, Iff.rfl⟩

/-- Settles O32: the correct frame leaves a zero residue, and the changed byte leaves another one. -/
theorem singleBitErrorsDetected : Obligations.SingleBitErrorsDetected := by
  intro frame k j hlen hk hj hcorrect frame'
  have hlen' : frame'.length = frame.length := List.length_modify _ _ _
  have hdetected : crcBytes 0xFFFF#16 (coveredBytes frame') ≠ frameTrailer frame' := by
    rw [ne_eq, trailer_correct_iff_residue_zero (by omega), ← (trailer_correct_iff_residue_zero hlen).mp hcorrect]
    exact crcBytes_modify_ne hk (xor_bit_ne hj) _
  refine ⟨hdetected, fun minLen s hmin => ?_⟩
  have hverify := frameVerify_eq (hlen'.symm ▸ hmin) s
  rw [crc16Modbus, Config.crcInit, if_neg hdetected] at hverify
  exact ⟨_, hverify⟩

/-- Settles O26: `crcByte_eq`, and the trace by evaluation. -/
theorem crcByteIsEightBits : Obligations.CrcByteIsEightBits :=
  ⟨crcByte_eq, by decide, by decide⟩

/-- Settles O33: the trace by evaluation, and `frameGen_eq` for the frame. -/
theorem referenceRequest : Obligations.ReferenceRequest := by
  refine ⟨by decide +kernel, crc16Modbus_request, by decide, fun s => ?_⟩
  have hgen := frameGen_eq [0x01#8, 0x03#8, 0x00#8, 0x00#8, 0x00#8, 0x01#8] s
  rw [crc16Modbus_request] at hgen
  exact ⟨_, hgen⟩

/-- Settles O35: `exec_eq`, and the value `CRC.READ` returns next. -/
theorem crcInitEffect : Obligations.CrcInitEffect := by
  refine ⟨encode_crcInit, fun s => ⟨exec_eq .crcInit s, fun h => ⟨_, exec_eq .crcInit s, ?_⟩, ?_⟩⟩
  · exact congrArg Block.mk h.symm
  · exact ⟨_, _, _, issue_eq_next .crcInit s, issue_crcRead (c := 0xFFFF#16) rfl⟩

/-- Settles O37: `exec_eq` and `issue_crcRead`, which leave the register for the next `CRC.READ`. -/
theorem crcReadEffect : Obligations.CrcReadEffect := by
  refine ⟨encode_crcRead, fun s => ?_, fun s h => ⟨_, issue_crcRead h⟩,
    fun s => ⟨_, _, _, issue_crcRead rfl, issue_crcRead rfl⟩,
    fun s => ⟨_, _, startFrame_eq _ s, issue_crcRead ((frameAbsorbed_crc _ s).trans crc16Modbus_request)⟩⟩
  rw [← setWidth_eq_zero_append]
  exact exec_eq .crcRead s

/-- Settles O38: `responseTo_crcCheck`, and `eq_bswap16_iff` for a trailer in the wrong order. -/
theorem crcCheckEffect : Obligations.CrcCheckEffect := by
  refine ⟨fun rx s => ⟨encode_crcCheck rx, ?_⟩,
    fun _ _ => ⟨BitVec.extractLsb'_append_eq_right, BitVec.extractLsb'_append_eq_left⟩, fun s => ⟨_, exec_eq _ s, ?_⟩,
    fun s h => ⟨_, _, issue_crcCheck h _, issue_crcCheck h _⟩⟩
  · rw [← responseTo_crcCheck]
    exact exec_eq (.crcCheck rx) s
  · rw [← setWidth_eq_zero_append, stateAfter, Option.some_inj, responseTo, rsp_eq_iff, checkStatus_mismatch_iff,
      ne_eq, eq_bswap16_iff]

end Sys2Proof.Machine
end

section
/-! The bytes and the halves of a 32-bit word, put together and taken apart (spec/41_swap.md R70, R71). -/

namespace Sys2Proof.Machine

section
variable (a b c d : Byte)

@[simp] theorem lane_streamWord_zero : lane (streamWord a b c d) 0 = a :=
  (BitVec.extractLsb'_append_eq_of_le (by decide)).trans <|
    (BitVec.extractLsb'_append_eq_of_le (by decide)).trans BitVec.extractLsb'_append_eq_left

@[simp] theorem lane_streamWord_one : lane (streamWord a b c d) 1 = b :=
  (BitVec.extractLsb'_append_eq_of_le (by decide)).trans <|
    (BitVec.extractLsb'_append_eq_of_le (by decide)).trans BitVec.extractLsb'_append_eq_right

@[simp] theorem lane_streamWord_two : lane (streamWord a b c d) 2 = c :=
  (BitVec.extractLsb'_append_eq_of_le (by decide)).trans BitVec.extractLsb'_append_eq_right

@[simp] theorem lane_streamWord_three : lane (streamWord a b c d) 3 = d :=
  BitVec.extractLsb'_append_eq_right

/-- A stream word is its two registers side by side (R71). -/
theorem streamWord_eq_append : streamWord a b c d = (a ++ b : Half) ++ (c ++ d : Half) :=
  BitVec.append_assoc

end

@[simp] theorem streamWord_lanes (x : Dword) : streamWord (lane x 0) (lane x 1) (lane x 2) (lane x 3) = x := by
  rw [streamWord, lane, lane, lane, lane, BitVec.extractLsb'_append_extractLsb'_eq_extractLsb' (by decide),
    BitVec.extractLsb'_append_extractLsb'_eq_extractLsb' (by decide),
    BitVec.extractLsb'_append_extractLsb'_eq_extractLsb' (by decide)]
  exact BitVec.extractLsb'_eq_self

/-- Words with the same four bytes are equal. -/
theorem eq_of_lane_eq {x y : Dword} (h : ∀ i < 4, lane x i = lane y i) : x = y := by
  rw [← streamWord_lanes x, ← streamWord_lanes y, h 0 (by decide), h 1 (by decide), h 2 (by decide), h 3 (by decide)]

@[simp] theorem firstReg_append (w0 w1 : Half) : firstReg (w0 ++ w1) = w0 := BitVec.extractLsb'_append_eq_left

@[simp] theorem secondReg_append (w0 w1 : Half) : secondReg (w0 ++ w1) = w1 := BitVec.extractLsb'_append_eq_right

theorem firstReg_append_secondReg (x : Dword) : firstReg x ++ secondReg x = x := BitVec.extractLsb'_append_extractLsb'

@[simp] theorem bswap16_append (a b : Byte) : bswap16 (a ++ b) = b ++ a := by
  rw [bswap16, BitVec.extractLsb'_append_eq_right, BitVec.extractLsb'_append_eq_left]

theorem exists_half_eq_append (w : Half) : ∃ a b : Byte, w = a ++ b :=
  ⟨_, _, (BitVec.extractLsb'_append_extractLsb' (len := 8)).symm⟩

end Sys2Proof.Machine
end

section
/-! The permutation on byte numbers and on registers (spec/41_swap.md R72 to R74, R78). -/

namespace Sys2Proof.Machine

theorem laneXor_lt (m : Mode) : laneXor m < 4 := by
  cases m <;> decide

theorem xor_laneXor_lt {i : Nat} (hi : i < 4) (m : Mode) : i ^^^ laneXor m < 4 :=
  Nat.xor_lt_two_pow (n := 2) hi (laneXor_lt m)

theorem exists_laneXor_eq_xor (m₁ m₂ : Mode) : ∃ m₃ : Mode, laneXor m₃ = laneXor m₁ ^^^ laneXor m₂ := by
  have hsurj : ∀ k < 4, ∃ m : Mode, laneXor m = k := fun k hk => by
    interval_cases k
    exacts [⟨.abcd, rfl⟩, ⟨.badc, rfl⟩, ⟨.cdab, rfl⟩, ⟨.dcba, rfl⟩]
  exact hsurj _ (xor_laneXor_lt (laneXor_lt m₁) m₂)

/-- The four rows of R72 as one: the byte numbers of each row are `0` to `3`, each XORed with the mode's number (R73). -/
theorem perm_eq_streamWord_xor (m : Mode) (x : Dword) : perm m x =
    streamWord (lane x (0 ^^^ laneXor m)) (lane x (1 ^^^ laneXor m)) (lane x (2 ^^^ laneXor m)) (lane x (3 ^^^ laneXor m)) := by
  cases m <;> rfl

theorem lane_perm (m : Mode) (x : Dword) {i : Nat} (hi : i < 4) : lane (perm m x) i = lane x (i ^^^ laneXor m) := by
  rw [perm_eq_streamWord_xor]
  interval_cases i <;> simp

/-- Modes compose by XOR of their numbers (R74 (c)). -/
theorem perm_perm {m₁ m₂ m₃ : Mode} (h : laneXor m₃ = laneXor m₁ ^^^ laneXor m₂) (x : Dword) :
    perm m₁ (perm m₂ x) = perm m₃ x :=
  eq_of_lane_eq fun _ hi => by
    rw [lane_perm m₁ _ hi, lane_perm m₂ _ (xor_laneXor_lt hi m₁), lane_perm m₃ _ hi, h, Nat.xor_assoc]

@[simp] theorem perm_abcd (x : Dword) : perm .abcd x = x := streamWord_lanes x

theorem perm_involutive (m : Mode) : Function.Involutive (perm m) := fun x =>
  (perm_perm (m₃ := .abcd) (Nat.xor_self _).symm x).trans (perm_abcd x)

/-- The byte numbers as a mode moves them. -/
def movedLane (m : Mode) (i : Fin 4) : Fin 4 :=
  ⟨i ^^^ laneXor m, xor_laneXor_lt i.isLt m⟩

theorem movedLane_involutive (m : Mode) : Function.Involutive (movedLane m) := fun _ =>
  Fin.ext (Nat.xor_xor_cancel_right _ _)

theorem perm_of_equal_bytes (m : Mode) (b : Byte) : perm m (streamWord b b b b) = streamWord b b b b := by
  cases m <;> simp [perm]

/-! The three other modes on the bytes of a word (R72). -/

section
variable (a b c d : Byte)

theorem perm_dcba_streamWord : perm .dcba (streamWord a b c d) = streamWord d c b a := by simp [perm]

theorem perm_badc_streamWord : perm .badc (streamWord a b c d) = streamWord b a d c := by simp [perm]

theorem perm_cdab_streamWord : perm .cdab (streamWord a b c d) = streamWord c d a b := by simp [perm]

end

/-! The same on the registers of a word (R78). -/

section
variable (w0 w1 : Half)

theorem perm_badc_append : perm .badc (w0 ++ w1) = bswap16 w0 ++ bswap16 w1 := by
  obtain ⟨a, b, rfl⟩ := exists_half_eq_append w0
  obtain ⟨c, d, rfl⟩ := exists_half_eq_append w1
  rw [← streamWord_eq_append, perm_badc_streamWord, streamWord_eq_append, bswap16_append, bswap16_append]

theorem perm_cdab_append : perm .cdab (w0 ++ w1) = w1 ++ w0 := by
  obtain ⟨a, b, rfl⟩ := exists_half_eq_append w0
  obtain ⟨c, d, rfl⟩ := exists_half_eq_append w1
  rw [← streamWord_eq_append, perm_cdab_streamWord, streamWord_eq_append]

/-- `DCBA` exchanges the bytes and then the registers. -/
theorem perm_dcba_append : perm .dcba (w0 ++ w1) = bswap16 w1 ++ bswap16 w0 := by
  rw [← perm_perm (m₁ := .cdab) (m₂ := .badc) rfl, perm_badc_append, perm_cdab_append]

end

theorem perm_badc_eq (x : Dword) : perm .badc x = bswap16 (firstReg x) ++ bswap16 (secondReg x) := by
  rw [← perm_badc_append, firstReg_append_secondReg]

theorem perm_cdab_eq_wswap32 (x : Dword) : perm .cdab x = wswap32 x := by
  have h := perm_cdab_append (firstReg x) (secondReg x)
  rwa [firstReg_append_secondReg] at h

/-! The two stages of R73 are modes themselves. -/

/-- The mode that only exchanges the bytes within each half, where `m` does so. -/
def byteStageMode (m : Mode) : Mode :=
  if bytesSwapped m then .badc else .abcd

/-- The mode that only exchanges the halves, where `m` does so. -/
def wordStageMode (m : Mode) : Mode :=
  if wordSwapped m then .cdab else .abcd

theorem laneXor_eq_xor_stages (m : Mode) : laneXor m = laneXor (wordStageMode m) ^^^ laneXor (byteStageMode m) := by
  cases m <;> decide

theorem perm_byteStageMode (m : Mode) (y : Dword) : perm (byteStageMode m) y =
    if bytesSwapped m then bswap16 (firstReg y) ++ bswap16 (secondReg y) else y := by
  rw [byteStageMode]
  split_ifs
  · exact perm_badc_eq y
  · exact perm_abcd y

theorem perm_wordStageMode (m : Mode) (y : Dword) : perm (wordStageMode m) y = if wordSwapped m then wswap32 y else y := by
  rw [wordStageMode]
  split_ifs
  · exact perm_cdab_eq_wswap32 y
  · exact perm_abcd y

theorem permStages_eq (m : Mode) (x : Dword) : permStages m x = perm (wordStageMode m) (perm (byteStageMode m) x) := by
  rw [perm_wordStageMode, perm_byteStageMode]
  rfl

end Sys2Proof.Machine
end

section
/-! The swap commands issued, and the host sequences made of them (spec/41_swap.md R75 to R78; 42_frame_pseudo_ops.md R89, R90). -/

namespace Sys2Proof.Machine

variable {m : Mode} {x y : Dword}

theorem issue_swpPack (h : perm m x = y) (s : State) :
    issue (.swpPack m x) s = .next (rsp .ok y, stateAfter (.swpPack m x) s) := by
  rw [issue_eq_next, responseTo, h]

theorem issue_swpUnpack (h : perm m x = y) (s : State) :
    issue (.swpUnpack m x) s = .next (rsp .ok y, stateAfter (.swpUnpack m x) s) := by
  rw [issue_eq_next, responseTo, h]

/-- The two commands differ in their words only (R77). -/
theorem issue_swpPack_eq_issue_swpUnpack (m : Mode) (x : Dword) (s : State) :
    issue (.swpPack m x) s = issue (.swpUnpack m x) s := by
  rw [issue_swpPack rfl, issue_swpUnpack rfl]
  rfl

theorem swpW2i_eq {w0 w1 : Half} (h : perm m (w0 ++ w1) = y) (s : State) :
    swpW2i m w0 w1 s = .next (y, stateAfter (.swpPack m (w0 ++ w1)) s) := by
  rw [swpW2i, issue_swpPack h, andThen_next, rspData_rsp]

theorem swpI2w_eq {w0 w1 : Half} (h : perm m x = w0 ++ w1) (s : State) :
    swpI2w m x s = .next ((w0, w1), stateAfter (.swpUnpack m x) s) := by
  rw [swpI2w, issue_swpUnpack h, andThen_next, rspData_rsp, firstReg_append, secondReg_append]

end Sys2Proof.Machine
end

section
/-! The statements about the permutation and the swap commands (spec/41_swap.md R72 to R79). -/

namespace Sys2Proof.Machine

/-- Settles O44: the stages are modes, and modes compose by XOR, which commutes. -/
theorem permIsLaneXor : Obligations.PermIsLaneXor := by
  intro m x
  have hbytesFirst := perm_perm (laneXor_eq_xor_stages m) x
  have hwordsFirst := perm_perm ((laneXor_eq_xor_stages m).trans (Nat.xor_comm _ _)) x
  refine ⟨fun i hi => lane_perm m x hi, ?_, ⟨?_, ?_⟩, rfl, by decide⟩
  · rw [permStages_eq, hbytesFirst]
  · rw [← hbytesFirst, perm_wordStageMode, perm_byteStageMode]
    rfl
  · rw [← hwordsFirst, perm_byteStageMode, perm_wordStageMode]
    rfl

/-- Settles O45: `perm_perm`, whose XOR is zero for a mode with itself, and `lane_perm` for the bytes moved. -/
theorem permAlgebra : Obligations.PermAlgebra :=
  ⟨perm_involutive, fun m => (perm_involutive m).bijective,
    fun _ _ _ x h => ⟨perm_perm h x, perm_perm (h.trans (Nat.xor_comm _ _)) x⟩, exists_laneXor_eq_xor,
    fun x => ⟨perm_perm rfl x, perm_perm rfl x, perm_perm rfl x, perm_abcd x⟩,
    fun m => ⟨(movedLane_involutive m).toPerm, fun x i => lane_perm m x i.isLt⟩,
    fun m => ⟨perm_of_equal_bytes m 0x00#8, perm_of_equal_bytes m 0xFF#8, perm_of_equal_bytes m⟩, by decide⟩

/-- Settles O46: both commands answer `perm`, which is its own inverse. -/
theorem packAndUnpackAreInverse : Obligations.PackAndUnpackAreInverse := by
  refine fun m x s => ⟨⟨_, _, _, _, issue_swpUnpack rfl s, issue_swpPack rfl _, ?_⟩,
    ⟨_, _, _, _, issue_swpPack rfl s, issue_swpUnpack rfl _, ?_⟩, issue_swpPack_eq_issue_swpUnpack m x s⟩
  all_goals rw [rspData_rsp, rspData_rsp, perm_involutive m x]

/-- Settles O47: the permutation on registers, in both directions. -/
theorem wordLevelView : Obligations.WordLevelView := by
  refine ⟨fun m w0 w1 s => ⟨_, swpW2i_eq rfl s⟩, fun w0 w1 s => ⟨_, _, _, _, swpW2i_eq (perm_abcd _) s,
    swpW2i_eq (perm_dcba_append w0 w1) s, swpW2i_eq (perm_badc_append w0 w1) s, swpW2i_eq (perm_cdab_append w0 w1) s⟩,
    fun v s => ?_⟩
  obtain ⟨hi, lo, rfl⟩ : ∃ hi lo : Half, v = hi ++ lo := ⟨_, _, (firstReg_append_secondReg v).symm⟩
  rw [BitVec.extractLsb'_append_eq_left, BitVec.extractLsb'_append_eq_right]
  exact ⟨_, _, _, _, swpI2w_eq (perm_abcd _) s, swpI2w_eq (perm_dcba_append hi lo) s, swpI2w_eq (perm_badc_append hi lo) s,
    swpI2w_eq (perm_cdab_append hi lo) s⟩

/-- Settles O48: the stream word as two registers, whose bytes the decoded words hold exchanged. -/
theorem vendorStatementsAgree : Obligations.VendorStatementsAgree := by
  intro b0 b1 b2 b3
  have hdcba : perm .dcba (streamWord b0 b1 b2 b3) = (b3 ++ b2 : Half) ++ (b1 ++ b0 : Half) :=
    (perm_dcba_streamWord b0 b1 b2 b3).trans (streamWord_eq_append b3 b2 b1 b0)
  have hstream : streamWord b0 b1 b2 b3 = bswap16 (b1 ++ b0) ++ bswap16 (b3 ++ b2) := by
    rw [bswap16_append, bswap16_append, streamWord_eq_append]
  refine ⟨⟨rfl, (perm_abcd _).trans (streamWord_eq_append b0 b1 b2 b3)⟩, ⟨rfl, perm_abcd _⟩, ⟨rfl, hdcba, hdcba.trans ?_⟩,
    ⟨rfl, perm_dcba_streamWord b0 b1 b2 b3⟩, hstream, ?_, perm_cdab_append _ _, ?_⟩
  · rw [BitVec.or_comm]
    exact (BitVec.setWidth_eq _).symm.trans BitVec.setWidth_append_eq_shiftLeft_setWidth_or
  · rw [← hstream, hdcba]
  · intro v
    cases v <;> decide

/-- Settles O39: `exec_eq`, and the rows of the table at the wire bytes. -/
theorem swpPackEffect : Obligations.SwpPackEffect :=
  ⟨fun m x s => ⟨encode_swpPack m x, exec_eq _ s⟩,
    fun b0 b1 b2 b3 s => ⟨_, _, _, _, issue_swpPack (perm_abcd _) s, issue_swpPack (perm_dcba_streamWord b0 b1 b2 b3) s,
      issue_swpPack (perm_badc_streamWord b0 b1 b2 b3) s, issue_swpPack (perm_cdab_streamWord b0 b1 b2 b3) s⟩,
    perm_of_equal_bytes⟩

/-- Settles O40: `exec_eq`, the rows of the table at the letters, and the parts of a stream word. -/
theorem swpUnpackEffect : Obligations.SwpUnpackEffect := by
  refine ⟨fun m v s => ⟨encode_swpUnpack m v, exec_eq _ s⟩,
    fun a b c d s => ⟨_, _, _, _, issue_swpUnpack (perm_abcd _) s, issue_swpUnpack (perm_dcba_streamWord a b c d) s,
      issue_swpUnpack (perm_badc_streamWord a b c d) s, issue_swpUnpack (perm_cdab_streamWord a b c d) s⟩,
    fun b0 b1 b2 b3 => ⟨?_, ?_, lane_streamWord_zero b0 b1 b2 b3, lane_streamWord_one b0 b1 b2 b3,
      lane_streamWord_two b0 b1 b2 b3, lane_streamWord_three b0 b1 b2 b3⟩⟩
  · rw [streamWord_eq_append, firstReg_append]
  · rw [streamWord_eq_append, secondReg_append]

/-- Settles O43: the rows as the definition has them, and `perm_involutive` for the other direction. -/
theorem permTable : Obligations.PermTable :=
  ⟨fun x => ⟨⟨rfl, perm_abcd x⟩, ⟨rfl, rfl⟩, ⟨rfl, perm_badc_eq x⟩, ⟨rfl, perm_cdab_eq_wswap32 x⟩, rfl, rfl, rfl, rfl⟩,
    fun m _ _ => eq_comm.trans (perm_involutive m).eq_iff, fun a b c d => ⟨⟨perm_abcd _, (perm_abcd _).symm⟩,
      ⟨perm_dcba_streamWord a b c d, (perm_dcba_streamWord d c b a).symm⟩,
      ⟨perm_badc_streamWord a b c d, (perm_badc_streamWord b a d c).symm⟩,
      ⟨perm_cdab_streamWord a b c d, (perm_cdab_streamWord c d a b).symm⟩⟩⟩

end Sys2Proof.Machine
end

section
/-! The responses to presented commands, one a step (spec/10_state.md R16, R18; 42_frame_pseudo_ops.md R85). -/

namespace Sys2Proof.Machine

/-- The responses to a sequence of commands, from the value of `CRC` before it. -/
def responsesTo (c : Half) : List Instr → List RspWord
  | [] => []
  | i :: rest => responseTo c i :: responsesTo (crcAfter c i) rest

theorem responses_present_encode (n : Nat) (i : Instr) (s : State) :
    responses (n + 1) (s.present (.command (encode i))) = responseTo s.block.crc i :: responses n (stateAfter i s) := by
  rw [responses, step_present_encode, exec_eq]
  rfl

/-- Presented all at once, each command is answered by its own step. -/
theorem responses_eq_responsesTo (cmds : List Instr) (rest : List HostInput) (s : State) :
    responses cmds.length { s with inputs := cmds.map (fun i => .command (encode i)) ++ rest } =
      responsesTo s.block.crc cmds := by
  induction cmds generalizing s with
  | nil => rfl
  | cons i cmds ih =>
    have hrest := ih (stateAfter i s)
    exact (responses_present_encode _ i { s with inputs := _ }).trans (congrArg (List.cons _) hrest)

theorem responsesTo_absorb_read (m : List Byte) (c : Half) : responsesTo c (m.map .crcUpd8 ++ [.crcRead]) =
    List.replicate m.length (rsp .ok 0) ++ [rsp .ok (0#16 ++ crcBytes c m)] := by
  induction m generalizing c with
  | nil => rw [← setWidth_eq_zero_append]; rfl
  | cons b m ih => exact congrArg _ (ih (crcByte c b))

theorem responsesTo_crcCalc (m : List Byte) (c : Half) : responsesTo c (.crcInit :: (m.map .crcUpd8 ++ [.crcRead])) =
    List.replicate (m.length + 1) (rsp .ok 0) ++ [rsp .ok (0#16 ++ crc16Modbus m)] :=
  congrArg _ (responsesTo_absorb_read m Config.crcInit)

end Sys2Proof.Machine
end

section
/-! The verdicts of the two verifications, and the 16-bit element (spec/42_frame_pseudo_ops.md R87, R88, R91). -/

namespace Sys2Proof.Machine

theorem receivedCrc_trailer_bytes (c : Half) : receivedCrc (c.extractLsb' 0 8) (c.extractLsb' 8 8) = c :=
  receivedCrc_eq_iff.mpr ⟨rfl, rfl⟩

theorem stateAfter_crcCheck_crc (rx : Half) (s : State) : (stateAfter (.crcCheck rx) s).block.crc = s.block.crc := rfl

section
variable {minLen : Config.MinFrameLen} {frame : List Byte} (s : State)

theorem frameVerify_of_short (hshort : frame.length < minLen.len) : frameVerify minLen frame s = .next (.tooShort, s) :=
  if_pos hshort

theorem frameVerify_of_trailer_eq (hlen : minLen.len ≤ frame.length)
    (htrailer : crc16Modbus (coveredBytes frame) = frameTrailer frame) : frameVerify minLen frame s =
      .next (.valid, stateAfter (.crcCheck (frameTrailer frame)) (frameAbsorbed (coveredBytes frame) s)) := by
  rw [frameVerify_eq hlen, if_pos htrailer]

theorem frameVerify_of_trailer_ne (hlen : minLen.len ≤ frame.length)
    (htrailer : crc16Modbus (coveredBytes frame) ≠ frameTrailer frame) : frameVerify minLen frame s =
      .next (.crcMismatch, stateAfter (.crcCheck (frameTrailer frame)) (frameAbsorbed (coveredBytes frame) s)) := by
  rw [frameVerify_eq hlen, if_neg htrailer]

theorem frameVerifyResidue_of_short (hshort : frame.length < minLen.len) :
    frameVerifyResidue minLen frame s = .next (.tooShort, s) :=
  if_pos hshort

theorem frameVerifyResidue_eq (hlen : minLen.len ≤ frame.length) : frameVerifyResidue minLen frame s = .next
    (if crc16Modbus frame = 0x0000#16 then .valid else .crcMismatch, stateAfter .crcRead (frameAbsorbed frame s)) := by
  rw [frameVerifyResidue, if_neg (by omega), startFrame_eq, andThen_next, issue_eq_next, andThen_next, responseTo,
    rspData_rsp, extractLsb'_setWidth_low (by decide)]
  rfl

/-- The comparison and the residue give one verdict (R88). -/
theorem frameVerify_eq_residue (hlen : minLen.len ≤ frame.length) : frameVerify minLen frame s = .next
    (if crc16Modbus frame = 0x0000#16 then .valid else .crcMismatch,
      stateAfter (.crcCheck (frameTrailer frame)) (frameAbsorbed (coveredBytes frame) s)) := by
  have htrailer : crc16Modbus (coveredBytes frame) = frameTrailer frame ↔ crc16Modbus frame = 0x0000#16 :=
    trailer_correct_iff_residue_zero (minLen.trailer_fits.trans hlen)
  rw [frameVerify_eq hlen, if_congr htrailer rfl rfl]

end

theorem bswap16_involutive : Function.Involutive bswap16 := by
  intro h
  obtain ⟨a, b, rfl⟩ := exists_half_eq_append h
  rw [bswap16_append, bswap16_append]

theorem swpH16_le (h : Half) (s : State) :
    swpH16 .le h s = .next (bswap16 h, stateAfter (.swpPack .badc (0#16 ++ h)) s) := by
  rw [swpH16, issue_swpPack (perm_badc_append 0#16 h), andThen_next, rspData_rsp, secondReg_append]

end Sys2Proof.Machine
end

section
/-! The statements about the host sequences (spec/42_frame_pseudo_ops.md R85 to R91). -/

namespace Sys2Proof.Machine

/-- Settles O50: `crcCalc_eq`, and the responses to its commands, of which only the last one carries data. -/
theorem crcCalcResult : Obligations.CrcCalcResult := by
  refine ⟨fun m s => ⟨_, crcCalc_eq m s, rfl, rfl⟩, fun m s => ?_, fun s => ⟨_, crcCalc_eq [] s⟩,
    fun s => ⟨_, crc16Modbus_request ▸ crcCalc_eq _ s⟩⟩
  dsimp only
  rw [responses_eq_responsesTo, responsesTo_crcCalc]
  refine ⟨by simp, by simp, fun r hr => ?_, List.getLast?_concat⟩
  rcases List.mem_append.mp hr with hzero | hlast
  · rw [List.eq_of_mem_replicate hzero, rspStatus_rsp]
  · rw [List.mem_singleton.mp hlast, rspStatus_rsp]

/-- Settles O51: `frameGen_eq`, and the parts a receiver takes such a frame into. -/
theorem frameGenAppendsTrailer : Obligations.FrameGenAppendsTrailer := by
  refine ⟨fun m s => ⟨_, frameGen_eq m s, List.length_append, ?_, coveredBytes_append_pair m _ _⟩, fun s => ?_⟩
  · rw [frameTrailer_append_pair, receivedCrc_trailer_bytes]
  · obtain ⟨-, -, -, hframe⟩ := referenceRequest
    exact hframe s

/-- Settles O52: `frameVerify_eq`, whose condition the examples decide. -/
theorem frameVerifyVerdict : Obligations.FrameVerifyVerdict := by
  refine ⟨fun minLen frame s => ⟨frameVerify_of_short s, fun hlen => ⟨_, frameVerify_eq hlen s, rfl, rfl⟩⟩, rfl, fun s => ?_⟩
  have hflipped : crc16Modbus [0x01#8, 0x03#8, 0x00#8, 0x10#8, 0x00#8, 0x01#8] = 0xCF85#16 := by decide +kernel
  exact ⟨_, _, frameVerify_of_trailer_eq s (by decide) crc16Modbus_request,
    frameVerify_of_trailer_ne s (by decide) (hflipped.trans_ne (by decide)),
    (stateAfter_crcCheck_crc _ _).trans ((frameAbsorbed_crc _ s).trans hflipped)⟩

/-- Settles O53: `frameVerify_eq_residue` where the trailer fits, and no command at all below the minimum length. -/
theorem residueVerifyAgrees : Obligations.ResidueVerifyAgrees := by
  refine ⟨fun minLen frame s => ?_, fun minLen frame s =>
    ⟨frameVerifyResidue_of_short s, fun hlen => ⟨_, frameVerifyResidue_eq s hlen, rfl⟩⟩, by decide +kernel, by decide +kernel⟩
  rcases lt_or_ge frame.length minLen.len with hshort | hlen
  · exact ⟨_, _, _, frameVerify_of_short s hshort, frameVerifyResidue_of_short s hshort⟩
  · exact ⟨_, _, _, frameVerify_eq_residue s hlen, frameVerifyResidue_eq s hlen⟩

/-- Settles O55: each sequence computes `perm`, which is its own inverse. -/
theorem wordSequencesAreInverse : Obligations.WordSequencesAreInverse := by
  refine ⟨fun m w0 w1 s => ⟨_, swpW2i_eq rfl s, _, swpI2w_eq (perm_involutive m _) _⟩, fun m v s => ?_,
    fun s => ⟨_, _, swpW2i_eq (perm_cdab_append _ _) s, swpI2w_eq (perm_dcba_append 0x1234#16 0x5678#16) s⟩⟩
  have hregs := firstReg_append_secondReg (perm m v)
  refine ⟨_, swpI2w_eq hregs.symm s, _, swpW2i_eq ?_ _⟩
  exact (congrArg _ hregs).trans (perm_involutive m v)

/-- Settles O56: the little-endian element is `bswap16`, which undoes itself. -/
theorem halfSequence : Obligations.HalfSequence := by
  refine ⟨fun b0 b1 s => ⟨rfl, _, bswap16_append b0 b1 ▸ swpH16_le _ s⟩, fun o h s => ?_, fun s => ⟨_, swpH16_le _ s⟩⟩
  cases o with
  | be => exact ⟨h, s, s, rfl, rfl⟩
  | le => exact ⟨_, _, _, swpH16_le h s, bswap16_involutive h ▸ swpH16_le _ _⟩

end Sys2Proof.Machine
end

section
/-! Which answers carry `ILLEGAL_CMD`: those to the words that spell no command (spec/60_exceptions.md R102, R105). -/

namespace Sys2Proof.Machine

theorem answeredIllegal_iff_instr?_eq_none {w : CmdWord} : AnsweredIllegal w ↔ (decode w).instr? = none := by
  simp only [answeredIllegal_iff, instr?_eq_none_iff, ne_eq, decode_eq_command_iff]

theorem checkStatus_ne_illegalCmd (crc rx : Half) : checkStatus crc rx ≠ .illegalCmd := by
  rw [checkStatus]; split_ifs <;> decide

/-- No command is answered `ILLEGAL_CMD`, whatever the register holds. -/
theorem rspStatus_responseTo_ne_illegalCmd (c : Half) (i : Instr) :
    rspStatus (responseTo c i) ≠ Status.illegalCmd.code := by
  cases i with
  | crcCheck rx =>
    rw [responseTo, rspStatus_rsp]
    exact fun h => checkStatus_ne_illegalCmd c rx (Status.code_injective h)
  | crcInit | crcUpd8 _ | crcRead | swpPack _ _ | swpUnpack _ _ =>
    rw [responseTo, rspStatus_rsp]
    decide

theorem exec_status_ne_illegalCmd {i : Instr} {s t : State} {r : RspWord} (hexec : exec i s = .next t)
    (hr : t.response = some r) : rspStatus r ≠ Status.illegalCmd.code := by
  rw [exec_eq] at hexec
  obtain rfl := Host.Outcome.next.inj hexec
  obtain rfl := Option.some.inj hr
  exact rspStatus_responseTo_ne_illegalCmd s.block.crc i

theorem illegalCmd_answered_iff {s t : State} {w : CmdWord} (hstep : step (s.present (.command w)) = .next t) :
    (∃ r, t.response = some r ∧ rspStatus r = Status.illegalCmd.code) ↔ (decode w).instr? = none := by
  rw [step_present_command] at hstep
  cases hw : decode w with
  | command i =>
    rw [runWord_command hw] at hstep
    simpa using fun r => exec_status_ne_illegalCmd hstep
  | illegal why =>
    rw [runWord_illegal hw] at hstep
    obtain rfl := Host.Outcome.next.inj hstep
    simp

/-- A run whose first step answers `ILLEGAL_CMD` counts as faulted, however long it goes on. -/
theorem runFaulted_of_illegalCmd {s t : State} {d : Dword} (hstep : step s = .next t)
    (hresponse : t.response = some (rsp .illegalCmd d)) (n : Nat) : runFaulted (n + 1) s = true := by
  simp [runFaulted, responses, hstep, hresponse]

end Sys2Proof.Machine
end

section
/-! The statements about illegal words and the order of the statuses (spec/60_exceptions.md R102, R105). -/

namespace Sys2Proof.Machine

/-- Settles O13: the illegal word writes the response port only, and the next step overwrites that port without reading it. -/
theorem illegalWordAnswered : Obligations.IllegalWordAnswered := by
  rintro ⟨block, inputs, response⟩ w i rest hinputs hnone
  obtain rfl : inputs = .command w :: .command (encode i) :: rest := hinputs
  obtain ⟨-, hanswer⟩ := answeredIllegal_iff_instr?_eq_none.mpr hnone
  have hstep := hanswer { block := block, inputs := .command (encode i) :: rest, response := response }
  exact ⟨_, hstep, rfl, rfl, rfl, step_present_encode ⟨block, rest, some (rsp .illegalCmd 0)⟩ i,
    runFaulted_of_illegalCmd hstep rfl⟩

/-- Settles O42: the word alone decides on `ILLEGAL_CMD`, reset is answered before any word beside it is decoded, and
`frame.verify` looks at the length before it issues a command. -/
theorem statusPriority : Obligations.StatusPriority :=
  ⟨fun _ _ _ => illegalCmd_answered_iff, fun _ _ _ _ => exec_status_ne_illegalCmd, fun s w => step_present_reset s (some w),
    fun _ _ s => frameVerify_of_short s⟩

end Sys2Proof.Machine
end

section
/-! The statement about the reset input (spec/70_reset_and_hazards.md R120). -/

namespace Sys2Proof.Machine

/-- Settles O11: `step_present_reset`, whatever stands beside the reset, and `step_present_encode` at the state it leaves. -/
theorem resetInputEffect : Obligations.ResetInputEffect :=
  fun s presented => ⟨s.applyReset, step_present_reset s presented, rfl, step_present_encode s.applyReset⟩

end Sys2Proof.Machine
end

section
/-! The fields of every command keep the must-be-zero rules, and the statements about single words (spec/30_encoding.md R39, R40,
R46). -/

namespace Sys2Proof.Machine

/-- A command's own fields keep every must-be-zero rule: its row fixes them and its operand fits (R40). -/
theorem instr_wellFormed (i : Instr) : i.WellFormed := by
  simp only [Instr.WellFormed, CmdFields.wellFormed, CmdFields.opAssigned, CmdFields.rsvZero, CmdFields.modeAllowed,
    CmdFields.dataAllowed, Bool.and_eq_true, decide_eq_true_eq]
  refine ⟨⟨⟨by simpa using encodeFields_op i, encodeFields_rsv i⟩, ?_⟩, fun hop => ?_, encodeFields_data_of_upd8,
    fun hop => ?_, encodeFields_data_of_check⟩
  · cases i with
    | crcInit | crcUpd8 _ | crcRead | crcCheck _ => exact .inr rfl
    | swpPack _ _ | swpUnpack _ _ => exact .inl (by simp [encodeFields])
  · exact encodeFields_data_of_no_operand (by simp [hop])
  · exact encodeFields_data_of_no_operand (by simp [hop])

/-- Settles O1: `instr_wellFormed`, and `decode_encode`, which reads the operand back out of its field. -/
theorem decodeEncodeRoundTrip : Obligations.DecodeEncodeRoundTrip :=
  fun i => ⟨instr_wellFormed i, decode_encode i⟩

/-- Settles O9: the ten words, decoded by evaluation. -/
theorem wordsWrittenOutDecode : Obligations.WordsWrittenOutDecode := by
  unfold Obligations.WordsWrittenOutDecode
  decide

end Sys2Proof.Machine
end

section
/-! A step as one function of the register and the accepted input (spec/10_state.md R16; 60_exceptions.md R102;
70_reset_and_hazards.md R120), and runs over lists of inputs. -/

namespace Sys2Proof.Machine

/-- The value of `CRC` after a command word, legal or not. -/
def crcAfterWord (c : Half) (w : CmdWord) : Half :=
  (decode w).instr?.elim c (crcAfter c)

/-- The response to a command word, legal or not. -/
def responseToWord (c : Half) (w : CmdWord) : RspWord :=
  (decode w).instr?.elim (rsp .illegalCmd 0) (responseTo c)

/-- The value of `CRC` after an input of the host. -/
def crcAfterInput (c : Half) : HostInput → Half
  | .reset _ => Config.crcInit
  | .command w => crcAfterWord c w

/-- What the port shows after an input of the host. -/
def responseToInput (c : Half) : HostInput → Option RspWord
  | .reset _ => none
  | .command w => some (responseToWord c w)

/-- The state after a step. Where nothing is presented the register stays and the port shows nothing. -/
def nextState (s : State) : State where
  block := { crc := s.inputs.head?.elim s.block.crc (crcAfterInput s.block.crc) }
  inputs := s.inputs.tail
  response := s.inputs.head?.bind (responseToInput s.block.crc)

section
variable {c : Half} {w : CmdWord} {i : Instr} {why : Illegal}

theorem crcAfterWord_of_command (h : decode w = .command i) : crcAfterWord c w = crcAfter c i := by
  rw [crcAfterWord, h]; rfl

theorem crcAfterWord_of_illegal (h : decode w = .illegal why) : crcAfterWord c w = c := by
  rw [crcAfterWord, h]; rfl

theorem responseToWord_of_command (h : decode w = .command i) : responseToWord c w = responseTo c i := by
  rw [responseToWord, h]; rfl

theorem responseToWord_of_illegal (h : decode w = .illegal why) : responseToWord c w = rsp .illegalCmd 0 := by
  rw [responseToWord, h]; rfl

end

theorem runWord_eq (w : CmdWord) (s : State) : runWord w s =
    .next { block := { crc := crcAfterWord s.block.crc w }, inputs := s.inputs,
            response := some (responseToWord s.block.crc w) } := by
  cases h : decode w with
  | command i => rw [runWord_command h, exec_eq, crcAfterWord_of_command h, responseToWord_of_command h]; rfl
  | illegal why => rw [runWord_illegal h, crcAfterWord_of_illegal h, responseToWord_of_illegal h]; rfl

/-- Everything a step does. -/
theorem step_eq (s : State) : step s = .next (nextState s) := by
  obtain ⟨block, inputs, response⟩ := s
  match inputs with
  | [] | .reset _ :: _ => rfl
  | .command w :: rest => exact runWord_eq w ⟨block, rest, response⟩

theorem eq_nextState {s t : State} (h : step s = .next t) : t = nextState s :=
  Host.Outcome.next.inj (h.symm.trans (step_eq s))

/-- What a step can do: nothing was presented, or a reset, or the one word of a command, or an illegal word. -/
theorem step_next_cases {s t : State} (h : step s = .next t) :
    (s.inputs.head? = none ∧ t.block = s.block ∧ t.response = none) ∨
    (∃ p, s.inputs.head? = some (.reset p) ∧ t.block.crc = Config.crcInit ∧ t.response = none) ∨
    (∃ i, s.inputs.head? = some (.command (encode i)) ∧ t.block.crc = crcAfter s.block.crc i ∧
      t.response = some (responseTo s.block.crc i)) ∨
    (∃ w, s.inputs.head? = some (.command w) ∧ (∀ i, w ≠ encode i) ∧ t.block = s.block ∧
      t.response = some (rsp .illegalCmd 0)) := by
  obtain rfl := eq_nextState h
  simp only [nextState]
  rcases s.inputs.head? with _ | w | p
  · exact .inl ⟨rfl, rfl, rfl⟩
  · right; right
    cases hw : decode w with
    | command i =>
      obtain rfl := decode_eq_command_iff.mp hw
      exact .inl ⟨i, rfl, crcAfterWord_of_command hw, congrArg some (responseToWord_of_command hw)⟩
    | illegal why =>
      refine .inr ⟨w, rfl, fun i hi => ?_, congrArg Block.mk (crcAfterWord_of_illegal hw),
        congrArg some (responseToWord_of_illegal hw)⟩
      rw [hi, decode_encode] at hw
      cases hw
  · exact .inr (.inl ⟨p, rfl, rfl, rfl⟩)

theorem responseToInput_isSome_iff {c : Half} {ev : HostInput} :
    (responseToInput c ev).isSome = true ↔ ∃ w, ev = .command w := by
  cases ev <;> simp [responseToInput]

theorem run_of_step {M : Host.Core} {s t : M.State} (h : M.step s = .next t) (n : Nat) : M.run (n + 1) s = M.run n t := by
  rw [Host.Core.run, h]

/-- A run over presented inputs takes just these, and folds `crcAfterInput` over the register. -/
theorem run_inputs (evs : List HostInput) (s : State) : ∃ t : State,
    Host.Core.run core evs.length { s with inputs := evs ++ s.inputs } = .next t ∧ t.inputs = s.inputs ∧
    t.block.crc = evs.foldl crcAfterInput s.block.crc := by
  induction evs generalizing s with
  | nil => exact ⟨s, rfl, rfl, rfl⟩
  | cons ev evs ih =>
    rw [List.length_cons, run_of_step (M := core) (step_eq _)]
    exact ih { nextState (s.present ev) with inputs := s.inputs }

theorem responses_succ (n : Nat) (s : State) :
    responses (n + 1) s = (nextState s).response.toList ++ responses n (nextState s) := by
  rw [responses, step_eq]

end Sys2Proof.Machine
end

section
/-! The response ports a step can leave, and the commands a repetition leaves alone (spec/20_memory.md section 3;
30_encoding.md R36; 60_exceptions.md R101). -/

namespace Sys2Proof.Machine

theorem State.portLegal_of_none {t : State} (h : t.response = none) : t.PortLegal := fun r hr => by
  rw [h] at hr; cases hr

theorem State.portLegal_of_rsp {t : State} {st : Status} {d : Dword} (h : t.response = some (rsp st d))
    (hillegal : st = .illegalCmd → d = 0) (hmismatch : st = .crcMismatch → d = t.block.crc.setWidth 32) : t.PortLegal := by
  intro r hr
  obtain rfl := Option.some.inj (h.symm.trans hr)
  rw [rspStatus_rsp, rspData_rsp, Status.code_inj, Status.code_inj]
  exact ⟨st.code_ne_three, hillegal, hmismatch⟩

/-- Only a check shows data beside a status other than `OK`, and it shows the register, which it keeps. -/
theorem State.portLegal_of_responseTo {t : State} {c : Half} {i : Instr} (hr : t.response = some (responseTo c i))
    (hcrc : t.block.crc = crcAfter c i) : t.PortLegal := by
  cases i with
  | crcCheck rx =>
    exact portLegal_of_rsp hr (fun h => absurd h (checkStatus_ne_illegalCmd c rx)) fun _ => by rw [hcrc, crcAfter]
  | crcInit | crcUpd8 _ | crcRead | swpPack _ _ | swpUnpack _ _ =>
    exact portLegal_of_rsp hr (fun h => nomatch h) fun h => nomatch h

/-- `CRC_MISMATCH` is the status of a check whose operand differs from the register, and of no other command (R101). -/
theorem rspStatus_responseTo_eq_mismatch_iff {c : Half} {i : Instr} :
    rspStatus (responseTo c i) = Status.crcMismatch.code ↔ ∃ rx, i = .crcCheck rx ∧ c ≠ rx := by
  cases i with
  | crcCheck rx => simp [responseTo, Status.code_inj, checkStatus_mismatch_iff]
  | crcInit | crcUpd8 _ | crcRead | swpPack _ _ | swpUnpack _ _ => simp [responseTo, Status.code_inj]

/-- A command that absorbs no byte finds nothing left to do the second time. -/
theorem stateAfter_idempotent {i : Instr} (h : ∀ b, i ≠ .crcUpd8 b) (s : State) :
    stateAfter i (stateAfter i s) = stateAfter i s := by
  cases i with
  | crcUpd8 byte => exact absurd rfl (h byte)
  | crcInit | crcRead | crcCheck _ | swpPack _ _ | swpUnpack _ _ => rfl

/-- Absorbing a byte twice is absorbing it once only where the byte leaves the register as it is. -/
theorem crcByte_eq_of_repeated {b : Byte} {s : State}
    (h : stateAfter (.crcUpd8 b) (stateAfter (.crcUpd8 b) s) = stateAfter (.crcUpd8 b) s) :
    crcByte s.block.crc b = s.block.crc :=
  crcByte_left_inj.mp (congrArg (·.block.crc) h)

end Sys2Proof.Machine
end

section
/-! The statements about a single step and a single command (spec/10_state.md sections 1, 3 and 4; 20_memory.md section 3;
60_exceptions.md section 1). -/

namespace Sys2Proof.Machine

/-- Settles O16: each way a step can go leaves the port empty, a command's response, or `rsp(ILLEGAL_CMD, 0)`. -/
theorem stepKeepsPortLegal : Obligations.StepKeepsPortLegal := by
  intro s t hstep
  obtain ⟨-, -, hr⟩ | ⟨p, -, -, hr⟩ | ⟨i, -, hcrc, hr⟩ | ⟨w, -, -, -, hr⟩ := step_next_cases hstep
  · exact State.portLegal_of_none hr
  · exact State.portLegal_of_none hr
  · exact State.portLegal_of_responseTo hr hcrc
  · exact State.portLegal_of_rsp hr (fun _ => rfl) fun h => nomatch h

/-- Settles O19: of the inputs of `step_next_cases`, those that can leave another register. -/
theorem onlyInitUpd8AndResetWriteCrc : Obligations.OnlyInitUpd8AndResetWriteCrc := by
  intro s t hstep hne
  obtain ⟨-, hblock, -⟩ | ⟨p, hin, hcrc, -⟩ | ⟨i, hin, hcrc, -⟩ | ⟨w, -, -, hblock, -⟩ := step_next_cases hstep
  · exact absurd (congrArg Block.crc hblock) hne
  · exact .inl ⟨p, hin, hcrc⟩
  · cases i with
    | crcInit => exact .inr (.inl ⟨encode_crcInit ▸ hin, hcrc⟩)
    | crcUpd8 byte => exact .inr (.inr ⟨byte, encode_crcUpd8 byte ▸ hin, hcrc⟩)
    | crcRead | crcCheck _ | swpPack _ _ | swpUnpack _ _ => exact absurd hcrc hne
  · exact absurd (congrArg Block.crc hblock) hne

/-- Settles O41: of the inputs of `step_next_cases` only a check that differs is answered with that status, and `step_congr`
drops the last response. -/
theorem mismatchOnlyFromCheck : Obligations.MismatchOnlyFromCheck := by
  refine ⟨fun s t r hstep hresponse => ?_, fun rx s hne => ?_, fun s w r => step_congr rfl rfl⟩
  · change rspStatus r = Status.crcMismatch.code ↔ _
    obtain ⟨-, -, hr⟩ | ⟨p, -, -, hr⟩ | ⟨i, hin, -, hr⟩ | ⟨w, hin, hillegal, -, hr⟩ := step_next_cases hstep <;>
      rw [hresponse] at hr
    · cases hr
    · cases hr
    · obtain rfl := Option.some.inj hr
      rw [hin, rspStatus_responseTo_eq_mismatch_iff]
      simp [encode_injective.eq_iff]
    · obtain rfl := Option.some.inj hr
      rw [hin, rspStatus_rsp, Status.code_inj]
      simp [hillegal]
  · rw [exec_eq, stateAfter, responseTo, (checkStatus_mismatch_iff _ _).mpr hne]
    rfl

/-- Settles O12: accepting the word leaves the state the statement writes out, and `runWord_command` runs the command on it. -/
theorem stepRunsTheDecodedCommand : Obligations.StepRunsTheDecodedCommand := by
  rintro ⟨block, inputs, response⟩ w rest i hinputs hw
  obtain rfl : inputs = .command w :: rest := hinputs
  exact runWord_command hw ⟨block, rest, response⟩

/-- Settles O14: `step_eq`, whose response is one to a command word only. -/
theorem everyStepAnswers : Obligations.EveryStepAnswers := by
  refine fun s => ⟨nextState s, step_eq s, rfl, ?_⟩
  rw [nextState]
  cases s.inputs.head? with
  | none => simp
  | some ev => simpa using responseToInput_isSome_iff

/-- Settles O18: nothing is on the port, and no byte leaves the register at its initial value. -/
theorem resetMeetsTheInvariants : Obligations.ResetMeetsTheInvariants :=
  ⟨State.portLegal_of_none rfl, rfl⟩

/-- Settles O20: `exec_eq`, and the commands that `crcAfter` maps to the register itself. -/
theorem commandFrames : Obligations.CommandFrames := by
  refine fun i s => ⟨stateAfter i s, exec_eq i s, rfl, rfl, ?_⟩
  rintro (rfl | ⟨rx, rfl⟩ | ⟨m, x, rfl⟩ | ⟨m, x, rfl⟩) <;> rfl

/-- Settles O23: `stateAfter_idempotent`, and a zero byte after reset, which changes the register. -/
theorem allButUpd8AreIdempotent : Obligations.AllButUpd8AreIdempotent := by
  refine ⟨fun i s h => ⟨stateAfter i s, exec_eq i s, ?_⟩, 0x00#8, State.reset, _, exec_eq _ _, fun h => ?_⟩
  · rw [exec_eq, stateAfter_idempotent h]
  · rw [exec_eq] at h
    exact absurd (crcByte_eq_of_repeated (Host.Outcome.next.inj h)) (by decide)

end Sys2Proof.Machine
end

section
/-! The reference of `RunsMatchReference` gives every word and every run the register and the responses of the machine
(spec/30_encoding.md R36, R38, R39; 40_crc.md R59). -/

namespace Sys2Proof.Machine

/-- A response that carries the register, its status and the zeros above the register taken together. -/
theorem rsp_setWidth (st : Status) (c : Half) : rsp st (c.setWidth 32) = (st.code ++ 0#16) ++ c := by
  rw [rsp, setWidth_eq_zero_append]
  exact (BitVec.append_assoc (x₁ := st.code) (x₂ := 0#16) (x₃ := c)).symm

theorem rsp_ok_setWidth (c : Half) : rsp .ok (c.setWidth 32) = c.setWidth 34 := by
  rw [rsp_setWidth, BitVec.setWidth_eq_append (w := 34) (x := c) (by decide)]
  rfl

theorem rsp_checkStatus (c rx : Half) :
    rsp (checkStatus c rx) (c.setWidth 32) = (if c = rx then 0#18 else 0x10000#18) ++ c := by
  rw [rsp_setWidth, checkStatus]
  split_ifs <;> rfl

/-- The two mode bits choose the rows of the permutation table (R38). -/
theorem reference_swap_eq_perm (m : Mode) (x : Dword) :
    Sys2Proof.Reference.swap (wordSwapped m) (bytesSwapped m) x = perm m x := by
  cases m with
  | abcd => exact (firstReg_append_secondReg x).trans (perm_abcd x).symm
  | badc => exact (perm_badc_eq x).symm
  | cdab => exact (perm_cdab_eq_wswap32 x).symm
  | dcba =>
    have h := perm_dcba_append (firstReg x) (secondReg x)
    rw [firstReg_append_secondReg] at h
    exact h.symm

theorem wordSwapped_ofCode (w : CmdWord) : wordSwapped (Mode.ofCode (w.extractLsb' 34 2)) = w.getLsbD 34 := by
  simp [wordSwapped]

theorem bytesSwapped_ofCode (w : CmdWord) :
    bytesSwapped (Mode.ofCode (w.extractLsb' 34 2)) = (w.getLsbD 35 ^^ w.getLsbD 34) := by
  simp [bytesSwapped]

theorem rsp_ok_perm_of_word (w : CmdWord) :
    rsp .ok (perm (Mode.ofCode (w.extractLsb' 34 2)) (w.extractLsb' 0 32)) =
      0#2 ++ Sys2Proof.Reference.swap (w.getLsbD 34) (w.getLsbD 35 ^^ w.getLsbD 34) (w.extractLsb' 0 32) := by
  rw [← reference_swap_eq_perm, wordSwapped_ofCode, bytesSwapped_ofCode]
  rfl

/-- A word that spells no command meets no row. -/
theorem decode_illegal_of_no_row {w : CmdWord} (h : ¬ ∃ r ∈ opcodeRows, r.spells w = true) :
    ∃ why, decode w = .illegal why := by
  cases hw : decode w with
  | illegal why => exact ⟨why, rfl⟩
  | command i => exact absurd ((exists_row_spells_iff w).mpr ⟨i, decode_eq_command_iff.mp hw⟩) h

/-- The rows, the table and the mode bits answer a word as the decoder and the machine do. -/
theorem reference_answer_eq (c : Half) (w : CmdWord) :
    Sys2Proof.Reference.answer c w = (crcAfterWord c w, responseToWord c w) := by
  have of_command {i : Instr} (h : decode w = .command i) :
      (crcAfterWord c w, responseToWord c w) = (crcAfter c i, responseTo c i) := by
    rw [crcAfterWord_of_command h, responseToWord_of_command h]
  rw [Sys2Proof.Reference.answer, ← rsp_ok_setWidth, ← rsp_checkStatus, ← rsp_ok_perm_of_word]
  split_ifs with hinit hupd8 hread hcheck hswap
  · rw [of_command ((crcInit_row w).mp hinit)]; rfl
  · rw [of_command ((crcUpd8_row w).mp hupd8), crcByteTable_eq]; rfl
  · rw [of_command ((crcRead_row w).mp hread)]; rfl
  · rw [of_command ((crcCheck_row w).mp hcheck)]; rfl
  · rcases hswap with hpack | hunpack
    · rw [of_command ((swpPack_row w).mp hpack)]; rfl
    · rw [of_command ((swpUnpack_row w).mp hunpack)]; rfl
  · have hnone : ¬ ∃ r ∈ opcodeRows, r.spells w = true := by
      simp only [opcodeRows, List.exists_mem_cons_iff, List.not_mem_nil, false_and, exists_false, or_false,
        OpcodeRow.spells_iff]
      tauto
    obtain ⟨why, hw⟩ := decode_illegal_of_no_row hnone
    rw [crcAfterWord_of_illegal hw, responseToWord_of_illegal hw]; rfl

theorem reference_run_cons (c : Half) (ev : HostInput) (evs : List HostInput) :
    Sys2Proof.Reference.run c (ev :: evs) =
      ((Sys2Proof.Reference.run (crcAfterInput c ev) evs).1,
        (responseToInput c ev).toList ++ (Sys2Proof.Reference.run (crcAfterInput c ev) evs).2) := by
  cases ev with
  | reset p => rfl
  | command w => rw [Sys2Proof.Reference.run, reference_answer_eq]; rfl

theorem reference_run_crc (c : Half) (evs : List HostInput) :
    (Sys2Proof.Reference.run c evs).1 = evs.foldl crcAfterInput c := by
  induction evs generalizing c with
  | nil => rfl
  | cons ev evs ih => rw [reference_run_cons, List.foldl_cons, ih]

theorem reference_run_responses (evs : List HostInput) (s : State) :
    responses evs.length { s with inputs := evs ++ s.inputs } = (Sys2Proof.Reference.run s.block.crc evs).2 := by
  induction evs generalizing s with
  | nil => rfl
  | cons ev evs ih =>
    have hrest := ih { nextState (s.present ev) with inputs := s.inputs }
    rw [reference_run_cons, List.length_cons, responses_succ]
    exact congrArg _ hrest

end Sys2Proof.Machine
end

section
/-! The statements about whole runs (spec/10_state.md section 1; 20_memory.md section 5). -/

namespace Sys2Proof.Machine

/-- Settles O15: `run_inputs` for the register, and `reference_answer_eq` word by word for the responses. -/
theorem runsMatchReference : Obligations.RunsMatchReference := by
  intro evs s
  obtain ⟨t, hrun, hinputs, hcrc⟩ := run_inputs evs s
  exact ⟨t, hrun, hcrc.trans (reference_run_crc _ evs).symm, hinputs, reference_run_responses evs s⟩

theorem crcAfterWord_crc16Modbus (m : List Byte) (w : CmdWord) :
    crcAfterWord (crc16Modbus m) w = crc16Modbus (sinceInit m (.command w)) := by
  cases hw : decode w with
  | illegal why => rw [crcAfterWord_of_illegal hw, sinceInit, hw]
  | command i =>
    rw [crcAfterWord_of_command hw, sinceInit, hw]
    cases i with
    | crcInit => rfl
    | crcUpd8 byte => exact (crcBytes_append Config.crcInit m [byte]).symm
    | crcRead | crcCheck _ | swpPack _ _ | swpUnpack _ _ => rfl

/-- One more input keeps the register at the CRC of the bytes absorbed since the last `CRC.INIT` or reset (R10). -/
theorem crcAfterInput_crc16Modbus (m : List Byte) (ev : HostInput) :
    crcAfterInput (crc16Modbus m) ev = crc16Modbus (sinceInit m ev) := by
  cases ev with
  | reset p => rfl
  | command w => exact crcAfterWord_crc16Modbus m w

/-- Settles O17: `crcAfterInput_crc16Modbus` keeps the invariant at each input, so the fold over the run keeps it too. -/
theorem registerHoldsBytesSinceInit : Obligations.RegisterHoldsBytesSinceInit := by
  intro evs m s hm
  obtain ⟨t, hrun, hinputs, hcrc⟩ := run_inputs evs s
  refine ⟨t, hrun, hinputs, ?_⟩
  rw [hcrc, hm, List.foldl_hom crc16Modbus crcAfterInput_crc16Modbus]

end Sys2Proof.Machine
end

section
/-! What a zero byte does to the register (spec/40_crc.md R50, R51, R54). -/

namespace Sys2Proof.Machine

/-- A zero byte takes no register but zero to zero (40_crc.md R54, R57). -/
theorem crcByte_zero_eq_zero_iff {c : Half} : crcByte c 0x00#8 = 0x0000#16 ↔ c = 0x0000#16 := by
  have hzero : crcByte 0x0000#16 0x00#8 = 0x0000#16 := by decide
  rw [← crcByte_left_inj (c := c) (b := 0x00#8), hzero]

/-- Settles O36: `exec_eq`, `crcByte_zero_eq_zero_iff`, and the examples by evaluation. -/
theorem crcUpd8Effect : Obligations.CrcUpd8Effect :=
  ⟨fun b s => ⟨encode_crcUpd8 b, exec_eq _ s⟩, by decide, fun _ => crcByte_zero_eq_zero_iff, by decide⟩

/-- Under a zero byte the low byte selects the table entry and the high byte is shifted down onto it (R59 (b)). -/
theorem crcByte_append_zero (hi lo : Byte) : crcByte (hi ++ lo) 0x00#8 = (0x00#8 ++ hi) ^^^ crcByte 0x0000#16 lo := by
  have hshift : (hi ++ lo) >>> 8 = 0x00#8 ++ hi := by
    rw [BitVec.ushiftRight_eq_extractLsb'_of_lt (by decide)]
    exact congrArg (0x00#8 ++ ·) BitVec.extractLsb'_append_eq_left
  rw [crcByte_eq_shift_xor, BitVec.extractLsb'_append_eq_right, BitVec.xor_zero, hshift]

/-- The table entries whose two bytes XOR to their index: those a fixed register can have selected. -/
theorem table_entry_xors_to_index {lo : Byte} :
    (crcByte 0x0000#16 lo).extractLsb' 8 8 ^^^ (crcByte 0x0000#16 lo).extractLsb' 0 8 = lo →
      lo = 0x00#8 ∨ lo = 0x01#8 := by
  revert lo
  decide +kernel

/-- Settles O34: the high byte of a fixed register is that of the table entry its low byte selects, and the entry's bytes then
XOR to the low byte. -/
theorem zeroByteFixedPoints : Obligations.ZeroByteFixedPoints := by
  refine fun c => ⟨fun hfix => ?_, ?_⟩
  · obtain ⟨hi, lo, rfl⟩ := exists_half_eq_append c
    rw [crcByte_append_zero, xor_eq_iff, BitVec.xor_append, BitVec.zero_xor] at hfix
    have hhi : (crcByte 0x0000#16 lo).extractLsb' 8 8 = hi := by rw [hfix, BitVec.extractLsb'_append_eq_left]
    have hlo : (crcByte 0x0000#16 lo).extractLsb' 0 8 = hi ^^^ lo := by rw [hfix, BitVec.extractLsb'_append_eq_right]
    have hindex : (crcByte 0x0000#16 lo).extractLsb' 8 8 ^^^ (crcByte 0x0000#16 lo).extractLsb' 0 8 = lo := by
      rw [hhi, hlo, ← BitVec.xor_assoc, BitVec.xor_self, BitVec.zero_xor]
    obtain rfl | rfl := table_entry_xors_to_index hindex <;> subst hhi <;> decide
  · rintro (rfl | rfl) <;> decide

end Sys2Proof.Machine
end

section
/-! The 16-bit element as two bytes, and arrays of them (spec/41_swap.md R80). -/

namespace Sys2Proof.Machine

@[simp] theorem pack16_unpack16 (o : ByteOrder) (h : Half) : pack16 o (unpack16 o h).1 (unpack16 o h).2 = h := by
  cases o <;> exact BitVec.extractLsb'_append_extractLsb'

/-- The little-endian packing exchanges the bytes of the big-endian one. -/
theorem pack16_le_eq_bswap16 (b0 b1 : Byte) : pack16 .le b0 b1 = bswap16 (b0 ++ b1) :=
  (bswap16_append b0 b1).symm

theorem shortsToBytes_eq_flatMap (o : ByteOrder) (xs : List Half) :
    shortsToBytes o xs = xs.flatMap fun h => [(unpack16 o h).1, (unpack16 o h).2] := by
  induction xs with
  | nil => rfl
  | cons h xs ih => rw [shortsToBytes, ih]; rfl

theorem bytesToShorts_shortsToBytes (o : ByteOrder) (xs : List Half) : bytesToShorts o (shortsToBytes o xs) = some xs := by
  induction xs with
  | nil => rfl
  | cons h xs ih => rw [shortsToBytes, bytesToShorts, ih, pack16_unpack16, Option.map_some]

/-- Settles O49: a half is its two bytes side by side, element by element, and `BADC` exchanges them in each half. -/
theorem halfPackingSymmetry : Obligations.HalfPackingSymmetry := by
  refine ⟨fun b0 b1 => ⟨rfl, rfl, ?_⟩, fun h => ⟨rfl, rfl⟩, pack16_unpack16, shortsToBytes_eq_flatMap,
    bytesToShorts_shortsToBytes⟩
  rw [perm_badc_append, pack16_le_eq_bswap16]
  exact (secondReg_append _ _).symm

end Sys2Proof.Machine
end

section
/-! The combined read (spec/42_frame_pseudo_ops.md R92): the verdict first, then the four bytes the host names. -/

namespace Sys2Proof.Machine

/-- Four bytes taken out of the covered bytes are those bytes of the frame. -/
theorem take_four_drop_coveredBytes {frame : List Byte} {place : Nat} (h : place + 4 ≤ frame.length - 2) :
    ((coveredBytes frame).drop place).take 4 =
      [frame.getD place 0, frame.getD (place + 1) 0, frame.getD (place + 2) 0, frame.getD (place + 3) 0] := by
  have hgetD {k : Nat} (hk : k < 4) : frame.getD (place + k) 0 = frame[place + k]'(by omega) :=
    List.getD_eq_getElem _ _ _
  refine List.ext_getElem (by simp [coveredBytes]; omega) fun k _ (hk : k < 4) => ?_
  simp only [coveredBytes, List.getElem_take, List.getElem_drop, ← hgetD hk]
  interval_cases k <;> rfl

section
variable {minLen : Config.MinFrameLen} {m : Mode} {place : Nat} {frame : List Byte} {s t : State}

theorem readValue_of_not_valid {v : Verdict} (hverify : frameVerify minLen frame s = .next (v, t)) (hv : v ≠ .valid) :
    readValue minLen m place frame s = .next (.failed v, t) := by
  rw [readValue, hverify, andThen_next]
  cases v with
  | valid => exact absurd rfl hv
  | crcMismatch | tooShort => rfl

theorem readValue_of_valid {b0 b1 b2 b3 : Byte} (hverify : frameVerify minLen frame s = .next (.valid, t))
    (hbytes : ((coveredBytes frame).drop place).take 4 = [b0, b1, b2, b3]) :
    readValue minLen m place frame s = .next
      (.value (perm m (streamWord b0 b1 b2 b3)), stateAfter (.swpPack m (streamWord b0 b1 b2 b3)) t) := by
  rw [readValue, hverify, andThen_next, hbytes]
  simp only
  rw [issue_swpPack rfl, andThen_next, rspData_rsp]

end

theorem frameVerify_answers (minLen : Config.MinFrameLen) (frame : List Byte) (s : State) :
    ∃ (v : Verdict) (t : State), frameVerify minLen frame s = .next (v, t) := by
  rcases lt_or_ge frame.length minLen.len with hshort | hlen
  · exact ⟨_, _, frameVerify_of_short s hshort⟩
  · exact ⟨_, _, frameVerify_eq hlen s⟩

/-- Settles O57: `frame.verify` always gives a verdict, and the read goes on from it only if it is `VALID`. -/
theorem readValueOnlyFromValidFrames : Obligations.ReadValueOnlyFromValidFrames := by
  intro minLen m place frame s
  obtain ⟨v, t, hverify⟩ := frameVerify_answers minLen frame s
  cases v with
  | valid =>
    exact ⟨_, _, _, hverify, fun hv => absurd rfl hv,
      fun _ hplace => readValue_of_valid hverify (take_four_drop_coveredBytes hplace)⟩
  | crcMismatch | tooShort =>
    exact ⟨_, _, t, hverify, readValue_of_not_valid hverify, fun hv => nomatch hv⟩

end Sys2Proof.Machine
end

section
/-! A generated frame at its receiver, and what goes wrong without `CRC.INIT`, with an exchanged trailer or with another mode
(spec/42_frame_pseudo_ops.md section 1; 70_reset_and_hazards.md section 2). -/

namespace Sys2Proof.Machine

/-- Settles O54: a receiver puts the two trailer bytes together to the CRC the sender took apart. -/
theorem generatedFramesVerify : Obligations.GeneratedFramesVerify := by
  intro minLen m s s' hlen
  refine ⟨_, _, _, frameGen_eq m s, frameVerify_of_trailer_eq s' (by simpa [trailer] using hlen) ?_⟩
  rw [trailer, coveredBytes_append_pair, frameTrailer_append_pair, receivedCrc_trailer_bytes]

theorem absorbedBytes_map_crcUpd8 (m : List Byte) : absorbedBytes (m.map .crcUpd8) = m :=
  List.filterMap_map.trans List.filterMap_some

theorem absorb_crc (m : List Byte) (s : State) :
    ∃ t : State, absorb m s = .next t ∧ t.block.crc = crcBytes s.block.crc m := by
  obtain ⟨t, hrun, hcrc⟩ := issueAll_crc (m.map .crcUpd8) s
  have hinit : ∀ i ∈ m.map Instr.crcUpd8, i ≠ .crcInit := by simp
  rw [foldl_crcAfter_eq_crcBytes hinit, absorbedBytes_map_crcUpd8] at hcrc
  exact ⟨t, hrun, hcrc⟩

/-- Settles O58: `absorb_crc`, and `crcBytes_left_inj`: different registers stay different under the same bytes. -/
theorem withoutInitTheCrcIsWrong : Obligations.WithoutInitTheCrcIsWrong := by
  intro m s
  obtain ⟨t, hrun, hcrc⟩ := absorb_crc m s
  refine ⟨t, hrun, hcrc, ?_⟩
  rw [hcrc]
  exact crcBytes_left_inj

/-- A trailer sent high byte first is the CRC with its bytes exchanged. -/
theorem frameVerify_swapped_trailer {minLen : Config.MinFrameLen} {m : List Byte} (hlen : minLen.len ≤ m.length + 2)
    (s : State) : frameVerify minLen (m ++ [(crc16Modbus m).extractLsb' 8 8, (crc16Modbus m).extractLsb' 0 8]) s = .next
      (if (crc16Modbus m).extractLsb' 0 8 = (crc16Modbus m).extractLsb' 8 8 then .valid else .crcMismatch,
        stateAfter (.crcCheck (bswap16 (crc16Modbus m))) (frameAbsorbed m s)) := by
  rw [frameVerify_eq (by simpa using hlen), coveredBytes_append_pair, frameTrailer_append_pair, receivedCrc, ← bswap16,
    if_congr eq_bswap16_iff rfl rfl]

/-- Settles O59: `frameVerify_swapped_trailer`, and the example by evaluation. -/
theorem swappedTrailerRejected : Obligations.SwappedTrailerRejected :=
  ⟨fun _ _ s hlen => ⟨_, frameVerify_swapped_trailer hlen s⟩,
    fun s => ⟨_, frameVerify_of_trailer_ne s (by decide) (crc16Modbus_request.trans_ne (by decide)),
      (stateAfter_crcCheck_crc _ _).trans ((frameAbsorbed_crc _ s).trans crc16Modbus_request)⟩,
    by decide, by decide +kernel⟩

/-- Settles O60: `perm_perm`, since the second command permutes what the first one answered. -/
theorem wrongModePermutesSilently : Obligations.WrongModePermutesSilently := by
  refine ⟨fun m₁ m₂ m₃ v s h => ?_, fun s => ?_⟩
  · have hcomp : perm m₂ (perm m₁ v) = perm m₃ v := perm_perm (h.trans (Nat.xor_comm _ _)) v
    refine ⟨_, _, _, _, issue_swpUnpack rfl s, issue_swpPack ?_ _, rfl, rfl, ?_⟩
    · rw [rspData_rsp, hcomp]
    · rw [rspData_rsp]
  · refine ⟨_, _, _, issue_swpUnpack (perm_abcd _) s, rfl, issue_swpPack ?_ _⟩
    decide

end Sys2Proof.Machine
end
